-- ==== Sys2Proof/Word.lean ====
section
/-! DEFINITION. The word types of the 8088 (spec 00 R7, R10). -/

namespace Sys2Proof

/-- A byte: 8 bits (R9). -/
abbrev Byte := BitVec 8

/-- A word: 16 bits, the width of every general register, segment register, offset and IO port (R7). -/
abbrev Word := BitVec 16

/-- A 20-bit linear (physical) address (R7). -/
abbrev LinAddr := BitVec 20

end Sys2Proof
end

