-- ==== Sys2Proof/Config.lean ====
section
/-! DEFINITION. What an implementation fixes (spec 00 R7), the domains of the parameters a model takes (00 R8), and the
free values: constants with no body, so that no proof can see what they are (`draw()` of 00 R14). -/

namespace Sys2Proof

/-- `UNDOC_MODE` (R8, D3): whether the undocumented aliases of 30 R455 are refused, or execute as what they alias. -/
inductive UndocMode where
  | refuse
  | asAlias
  deriving DecidableEq, Repr

/-- `DIV_ERROR_RETURN` (R8, D5): which offset a divide error stacks. -/
inductive DivErrorReturn where
  | next
  | faulting
  deriving DecidableEq, Repr

/-- `REP_RESUME` (R8, D7): where an interrupted REP run resumes. -/
inductive RepResume where
  | lastPrefix
  | firstPrefix
  deriving DecidableEq, Repr

/-- `CLOCK_FACTOR` (R8, D21): system ticks per CPU cycle, or CPU cycles per system tick. -/
inductive ClockFactor where
  | divisor (d : Nat)
  | multiplier (m : Nat)
  deriving DecidableEq, Repr

/-- `DAA_THRESHOLD` (R8, D44): the second test of DAA and DAS. -/
inductive DaaThreshold where
  | intel
  | afDependent
  deriving DecidableEq, Repr

/-- `CPU_VARIANT` (R8, D2): the Intel 8088 is the only member. -/
inductive CpuVariant where
  | i8088
  deriving DecidableEq, Repr

namespace Config

/-- `QCAP`: the prefetch queue holds at most four bytes (R7, 21 R320). -/
def queueCap : Nat := 4

/-- `MMIO_GRANULE` is 8 KiB: a granule number is the linear address shifted right by 13 (R7, 20 R211). -/
def granuleShift : Nat := 13

/-- System ticks per PIT clock (61 R1311, D22). -/
def ticksPerPitClock : Nat := 12

/-- The n-th free bit (`draw()` of R14 at width 1). Log 6. -/
opaque freeBit : Nat → Bool

/-- The n-th free byte (`draw()` of R14 at width 8). Log 6. -/
opaque freeByte : Nat → BitVec 8

/-- The n-th free word (`draw()` of R14 at width 16). Log 6. -/
opaque freeWord : Nat → BitVec 16

/-- The n-th free linear address. Log 6. -/
opaque freeAddr : Nat → BitVec 20

/-- The wait states, in system ticks, of the n-th oracle access for which the environment has scheduled none (20 R210,
21 R303). Log 10. -/
opaque freeWaits : Nat → Nat

/-- The clocks the EU spends on its own at the n-th such point drawn (21 R309), and with them the number of code fetches that
fall there, a draw in 21 R330. Log 7. -/
opaque euClocks : Nat → Nat

/-- `STEP_CYCLES` as a draw (R8, 31 R510, D43): the cycles of the n-th drawn step; a step takes at least one. Log 8. -/
opaque stepCycles : Nat → Nat

end Config

end Sys2Proof
end

