-- ==== Sys2Proof/Syntax.lean ====
section
/-! DEFINITION. The instruction syntax: registers, addressing modes, and one constructor of `Instr` for each row of
spec/opcode_table.json. Encodings stand in Decode.lean, meanings under Machine/. -/

namespace Sys2Proof

/-- The 8-bit register file in encoding order (10 R102). -/
inductive Reg8 where
  | al | cl | dl | bl | ah | ch | dh | bh
  deriving DecidableEq, Repr

/-- The 16-bit register file in encoding order (10 R101). -/
inductive Reg16 where
  | ax | cx | dx | bx | sp | bp | si | di
  deriving DecidableEq, Repr

/-- The segment registers in encoding order (10 R105). -/
inductive Sreg where
  | es | cs | ss | ds
  deriving DecidableEq, Repr

/-- The base-and-index part of a memory operand, in `rm` order (30 R421; `bp` at 110 exists with a displacement only). -/
inductive Base where
  | bxSi | bxDi | bpSi | bpDi | si | di | bp | bx
  deriving DecidableEq, Repr

/-- A memory operand of a ModR/M byte: the mod = 00, 01, 10 columns and the direct form of 30 R421. -/
inductive Mem where
  | base (b : Base)
  | baseD8 (b : Base) (d : Byte)
  | baseD16 (b : Base) (d : Word)
  | direct (d : Word)
  deriving DecidableEq, Repr

/-- A byte r/m operand `Eb` (00 R15, 30 R420). -/
inductive RM8 where
  | reg (r : Reg8)
  | mem (m : Mem)
  deriving DecidableEq, Repr

/-- A word r/m operand `Ev` or `Ew` (00 R15, 30 R420). -/
inductive RM16 where
  | reg (r : Reg16)
  | mem (m : Mem)
  deriving DecidableEq, Repr

/-- The eight ALU operations in encoding order (41 R703). -/
inductive AluOp where
  | add | or | adc | sbb | and | sub | xor | cmp
  deriving DecidableEq, Repr

/-- The seven shifts and rotates of group 2, without SETMO and SETMOC (30 R432). -/
inductive ShiftOp where
  | rol | ror | rcl | rcr | shl | shr | sar
  deriving DecidableEq, Repr

/-- The five string operations (43 R902 to R906). -/
inductive StringOp where
  | movs | cmps | scas | lods | stos
  deriving DecidableEq, Repr

/-- The REP prefixes (30 R410). -/
inductive RepKind where
  | repne | repe
  deriving DecidableEq, Repr

/-- One constructor per row of spec/opcode_table.json, those with operands in the table's order, then those without (Lean's compiler wants the
constructors that carry data among the first 244). A row whose form the spec refuses, and a
prefix row, is a constructor like any other. In a name, `E` is the r/m operand, `G` the register of the reg field, `I` an
immediate, `b` a byte and `v` or `w` a word (00 R15). -/
inductive Instr where
  /-- `ADD Eb, Gb` (00; R705). -/
  | addEbGb (e : RM8) (g : Reg8)
  /-- `ADD Ev, Gv` (01; R705). -/
  | addEvGv (e : RM16) (g : Reg16)
  /-- `ADD Gb, Eb` (02; R705). -/
  | addGbEb (g : Reg8) (e : RM8)
  /-- `ADD Gv, Ev` (03; R705). -/
  | addGvEv (g : Reg16) (e : RM16)
  /-- `ADD AL, Ib` (04; R705). -/
  | addAlIb (i : Byte)
  /-- `ADD AX, Iw` (05; R705). -/
  | addAxIw (i : Word)
  /-- `OR Eb, Gb` (08; R802). -/
  | orEbGb (e : RM8) (g : Reg8)
  /-- `OR Ev, Gv` (09; R802). -/
  | orEvGv (e : RM16) (g : Reg16)
  /-- `OR Gb, Eb` (0A; R802). -/
  | orGbEb (g : Reg8) (e : RM8)
  /-- `OR Gv, Ev` (0B; R802). -/
  | orGvEv (g : Reg16) (e : RM16)
  /-- `OR AL, Ib` (0C; R802). -/
  | orAlIb (i : Byte)
  /-- `OR AX, Iw` (0D; R802). -/
  | orAxIw (i : Word)
  /-- `ADC Eb, Gb` (10; R706). -/
  | adcEbGb (e : RM8) (g : Reg8)
  /-- `ADC Ev, Gv` (11; R706). -/
  | adcEvGv (e : RM16) (g : Reg16)
  /-- `ADC Gb, Eb` (12; R706). -/
  | adcGbEb (g : Reg8) (e : RM8)
  /-- `ADC Gv, Ev` (13; R706). -/
  | adcGvEv (g : Reg16) (e : RM16)
  /-- `ADC AL, Ib` (14; R706). -/
  | adcAlIb (i : Byte)
  /-- `ADC AX, Iw` (15; R706). -/
  | adcAxIw (i : Word)
  /-- `SBB Eb, Gb` (18; R708). -/
  | sbbEbGb (e : RM8) (g : Reg8)
  /-- `SBB Ev, Gv` (19; R708). -/
  | sbbEvGv (e : RM16) (g : Reg16)
  /-- `SBB Gb, Eb` (1A; R708). -/
  | sbbGbEb (g : Reg8) (e : RM8)
  /-- `SBB Gv, Ev` (1B; R708). -/
  | sbbGvEv (g : Reg16) (e : RM16)
  /-- `SBB AL, Ib` (1C; R708). -/
  | sbbAlIb (i : Byte)
  /-- `SBB AX, Iw` (1D; R708). -/
  | sbbAxIw (i : Word)
  /-- `AND Eb, Gb` (20; R801). -/
  | andEbGb (e : RM8) (g : Reg8)
  /-- `AND Ev, Gv` (21; R801). -/
  | andEvGv (e : RM16) (g : Reg16)
  /-- `AND Gb, Eb` (22; R801). -/
  | andGbEb (g : Reg8) (e : RM8)
  /-- `AND Gv, Ev` (23; R801). -/
  | andGvEv (g : Reg16) (e : RM16)
  /-- `AND AL, Ib` (24; R801). -/
  | andAlIb (i : Byte)
  /-- `AND AX, Iw` (25; R801). -/
  | andAxIw (i : Word)
  /-- `SUB Eb, Gb` (28; R707). -/
  | subEbGb (e : RM8) (g : Reg8)
  /-- `SUB Ev, Gv` (29; R707). -/
  | subEvGv (e : RM16) (g : Reg16)
  /-- `SUB Gb, Eb` (2A; R707). -/
  | subGbEb (g : Reg8) (e : RM8)
  /-- `SUB Gv, Ev` (2B; R707). -/
  | subGvEv (g : Reg16) (e : RM16)
  /-- `SUB AL, Ib` (2C; R707). -/
  | subAlIb (i : Byte)
  /-- `SUB AX, Iw` (2D; R707). -/
  | subAxIw (i : Word)
  /-- `XOR Eb, Gb` (30; R803). -/
  | xorEbGb (e : RM8) (g : Reg8)
  /-- `XOR Ev, Gv` (31; R803). -/
  | xorEvGv (e : RM16) (g : Reg16)
  /-- `XOR Gb, Eb` (32; R803). -/
  | xorGbEb (g : Reg8) (e : RM8)
  /-- `XOR Gv, Ev` (33; R803). -/
  | xorGvEv (g : Reg16) (e : RM16)
  /-- `XOR AL, Ib` (34; R803). -/
  | xorAlIb (i : Byte)
  /-- `XOR AX, Iw` (35; R803). -/
  | xorAxIw (i : Word)
  /-- `CMP Eb, Gb` (38; R709). -/
  | cmpEbGb (e : RM8) (g : Reg8)
  /-- `CMP Ev, Gv` (39; R709). -/
  | cmpEvGv (e : RM16) (g : Reg16)
  /-- `CMP Gb, Eb` (3A; R709). -/
  | cmpGbEb (g : Reg8) (e : RM8)
  /-- `CMP Gv, Ev` (3B; R709). -/
  | cmpGvEv (g : Reg16) (e : RM16)
  /-- `CMP AL, Ib` (3C; R709). -/
  | cmpAlIb (i : Byte)
  /-- `CMP AX, Iw` (3D; R709). -/
  | cmpAxIw (i : Word)
  /-- `INC r16` (40; R710). -/
  | incR16 (r : Reg16)
  /-- `DEC r16` (48; R712). -/
  | decR16 (r : Reg16)
  /-- `PUSH r16` (50; R610). -/
  | pushR16 (r : Reg16)
  /-- `POP r16` (58; R613). -/
  | popR16 (r : Reg16)
  /-- `JO rel8` (70; R1003). -/
  | jo (rel : Byte)
  /-- `JNO rel8` (71; R1003). -/
  | jno (rel : Byte)
  /-- `JB rel8` (72; R1003). -/
  | jb (rel : Byte)
  /-- `JNB rel8` (73; R1003). -/
  | jnb (rel : Byte)
  /-- `JZ rel8` (74; R1003). -/
  | jz (rel : Byte)
  /-- `JNZ rel8` (75; R1003). -/
  | jnz (rel : Byte)
  /-- `JBE rel8` (76; R1003). -/
  | jbe (rel : Byte)
  /-- `JA rel8` (77; R1003). -/
  | ja (rel : Byte)
  /-- `JS rel8` (78; R1003). -/
  | js (rel : Byte)
  /-- `JNS rel8` (79; R1003). -/
  | jns (rel : Byte)
  /-- `JP rel8` (7A; R1003). -/
  | jp (rel : Byte)
  /-- `JNP rel8` (7B; R1003). -/
  | jnp (rel : Byte)
  /-- `JL rel8` (7C; R1003). -/
  | jl (rel : Byte)
  /-- `JGE rel8` (7D; R1003). -/
  | jge (rel : Byte)
  /-- `JLE rel8` (7E; R1003). -/
  | jle (rel : Byte)
  /-- `JG rel8` (7F; R1003). -/
  | jg (rel : Byte)
  /-- `Jcc rel8 (alias 60-6F of 70-7F)` (60; R455). -/
  | jccAlias (cc : BitVec 4) (rel : Byte)
  /-- `ADD Eb, Ib` (80 /0; R705). -/
  | addEbIb (e : RM8) (i : Byte)
  /-- `OR Eb, Ib` (80 /1; R802). -/
  | orEbIb (e : RM8) (i : Byte)
  /-- `ADC Eb, Ib` (80 /2; R706). -/
  | adcEbIb (e : RM8) (i : Byte)
  /-- `SBB Eb, Ib` (80 /3; R708). -/
  | sbbEbIb (e : RM8) (i : Byte)
  /-- `AND Eb, Ib` (80 /4; R801). -/
  | andEbIb (e : RM8) (i : Byte)
  /-- `SUB Eb, Ib` (80 /5; R707). -/
  | subEbIb (e : RM8) (i : Byte)
  /-- `XOR Eb, Ib` (80 /6; R803). -/
  | xorEbIb (e : RM8) (i : Byte)
  /-- `CMP Eb, Ib` (80 /7; R709). -/
  | cmpEbIb (e : RM8) (i : Byte)
  /-- `ADD Ev, Iw` (81 /0; R705). -/
  | addEvIw (e : RM16) (i : Word)
  /-- `OR Ev, Iw` (81 /1; R802). -/
  | orEvIw (e : RM16) (i : Word)
  /-- `ADC Ev, Iw` (81 /2; R706). -/
  | adcEvIw (e : RM16) (i : Word)
  /-- `SBB Ev, Iw` (81 /3; R708). -/
  | sbbEvIw (e : RM16) (i : Word)
  /-- `AND Ev, Iw` (81 /4; R801). -/
  | andEvIw (e : RM16) (i : Word)
  /-- `SUB Ev, Iw` (81 /5; R707). -/
  | subEvIw (e : RM16) (i : Word)
  /-- `XOR Ev, Iw` (81 /6; R803). -/
  | xorEvIw (e : RM16) (i : Word)
  /-- `CMP Ev, Iw` (81 /7; R709). -/
  | cmpEvIw (e : RM16) (i : Word)
  /-- `ADD Eb, Ib` (82 /0; R455). -/
  | addEbIbAlias (e : RM8) (i : Byte)
  /-- `OR Eb, Ib` (82 /1; R455). -/
  | orEbIbAlias (e : RM8) (i : Byte)
  /-- `ADC Eb, Ib` (82 /2; R455). -/
  | adcEbIbAlias (e : RM8) (i : Byte)
  /-- `SBB Eb, Ib` (82 /3; R455). -/
  | sbbEbIbAlias (e : RM8) (i : Byte)
  /-- `AND Eb, Ib` (82 /4; R455). -/
  | andEbIbAlias (e : RM8) (i : Byte)
  /-- `SUB Eb, Ib` (82 /5; R455). -/
  | subEbIbAlias (e : RM8) (i : Byte)
  /-- `XOR Eb, Ib` (82 /6; R455). -/
  | xorEbIbAlias (e : RM8) (i : Byte)
  /-- `CMP Eb, Ib` (82 /7; R455). -/
  | cmpEbIbAlias (e : RM8) (i : Byte)
  /-- `ADD Ev, sext(Ib)` (83 /0; R705). -/
  | addEvIbSx (e : RM16) (i : Byte)
  /-- `OR Ev, sext(Ib)` (83 /1; R802). -/
  | orEvIbSx (e : RM16) (i : Byte)
  /-- `ADC Ev, sext(Ib)` (83 /2; R706). -/
  | adcEvIbSx (e : RM16) (i : Byte)
  /-- `SBB Ev, sext(Ib)` (83 /3; R708). -/
  | sbbEvIbSx (e : RM16) (i : Byte)
  /-- `AND Ev, sext(Ib)` (83 /4; R801). -/
  | andEvIbSx (e : RM16) (i : Byte)
  /-- `SUB Ev, sext(Ib)` (83 /5; R707). -/
  | subEvIbSx (e : RM16) (i : Byte)
  /-- `XOR Ev, sext(Ib)` (83 /6; R803). -/
  | xorEvIbSx (e : RM16) (i : Byte)
  /-- `CMP Ev, sext(Ib)` (83 /7; R709). -/
  | cmpEvIbSx (e : RM16) (i : Byte)
  /-- `TEST Eb, Gb` (84; R804). -/
  | testEbGb (e : RM8) (g : Reg8)
  /-- `TEST Ev, Gv` (85; R804). -/
  | testEvGv (e : RM16) (g : Reg16)
  /-- `XCHG Eb, Gb` (86; R620). -/
  | xchgEbGb (e : RM8) (g : Reg8)
  /-- `XCHG Ev, Gv` (87; R620). -/
  | xchgEvGv (e : RM16) (g : Reg16)
  /-- `MOV Eb, Gb` (88; R601). -/
  | movEbGb (e : RM8) (g : Reg8)
  /-- `MOV Ev, Gv` (89; R601). -/
  | movEvGv (e : RM16) (g : Reg16)
  /-- `MOV Gb, Eb` (8A; R601). -/
  | movGbEb (g : Reg8) (e : RM8)
  /-- `MOV Gv, Ev` (8B; R601). -/
  | movGvEv (g : Reg16) (e : RM16)
  /-- `MOV Ew, Sw` (8C; R602). -/
  | movEwSw (e : RM16) (sr : Sreg)
  /-- `MOV Ew, Sw (alias reg 4-7)` (8C; R455). -/
  | movEwSwAlias (e : RM16) (sr : Sreg)
  /-- `LEA Gv, M` (8D; R627). -/
  | leaGvM (g : Reg16) (m : Mem)
  /-- `LEA Gv, reg (refused)` (8D; R456). -/
  | leaGvRegRefused (g : Reg16) (r : Reg16)
  /-- `MOV ES, Ew` (8E /0; R603). -/
  | movEsEw (e : RM16)
  /-- `MOV CS, Ew (refused, reg 1)` (8E /1; R456). -/
  | movCsEwRefused1 (e : RM16)
  /-- `MOV SS, Ew` (8E /2; R603). -/
  | movSsEw (e : RM16)
  /-- `MOV DS, Ew` (8E /3; R603). -/
  | movDsEw (e : RM16)
  /-- `MOV ES, Ew (alias reg 4)` (8E /4; R455). -/
  | movEsEwAlias (e : RM16)
  /-- `MOV CS, Ew (refused, reg 5)` (8E /5; R456). -/
  | movCsEwRefused5 (e : RM16)
  /-- `MOV SS, Ew (alias reg 6)` (8E /6; R455). -/
  | movSsEwAlias (e : RM16)
  /-- `MOV DS, Ew (alias reg 7)` (8E /7; R455). -/
  | movDsEwAlias (e : RM16)
  /-- `POP Ev` (8F /0; R615). -/
  | popEv (e : RM16)
  /-- `8F /1 to /7 (refused)` (8F; R456). -/
  | pop8FRefused (reg : BitVec 3) (e : RM16)
  /-- `XCHG AX, r16` (90; R621). -/
  | xchgAxR16 (r : Reg16)
  /-- `CALL ptr16:16` (9A; R1007). -/
  | callPtr (off : Word) (seg : Word)
  /-- `MOV AL, [moffs16]` (A0; R604). -/
  | movAlMoffs (off : Word)
  /-- `MOV AX, [moffs16]` (A1; R604). -/
  | movAxMoffs (off : Word)
  /-- `MOV [moffs16], AL` (A2; R605). -/
  | movMoffsAl (off : Word)
  /-- `MOV [moffs16], AX` (A3; R605). -/
  | movMoffsAx (off : Word)
  /-- `TEST AL, Ib` (A8; R804). -/
  | testAlIb (i : Byte)
  /-- `TEST AX, Iw` (A9; R804). -/
  | testAxIw (i : Word)
  /-- `MOV r8, Ib` (B0; R606). -/
  | movR8Ib (r : Reg8) (i : Byte)
  /-- `MOV r16, Iw` (B8; R607). -/
  | movR16Iw (r : Reg16) (i : Word)
  /-- `RET Iw (alias of C2)` (C0; R455). -/
  | retIwAlias (i : Word)
  /-- `RET Iw` (C2; R1011). -/
  | retIw (i : Word)
  /-- `RETF Iw (alias of CA)` (C8; R455). -/
  | retfIwAlias (i : Word)
  /-- `RETF Iw` (CA; R1013). -/
  | retfIw (i : Word)
  /-- `INT Ib` (CD; R1018). -/
  | intIb (i : Byte)
  /-- `LES Gv, Mp` (C4; R629). -/
  | lesGvMp (g : Reg16) (m : Mem)
  /-- `LES Gv, reg (refused)` (C4; R456). -/
  | lesGvRegRefused (g : Reg16) (r : Reg16)
  /-- `LDS Gv, Mp` (C5; R628). -/
  | ldsGvMp (g : Reg16) (m : Mem)
  /-- `LDS Gv, reg (refused)` (C5; R456). -/
  | ldsGvRegRefused (g : Reg16) (r : Reg16)
  /-- `MOV Eb, Ib` (C6 /0; R608). -/
  | movEbIb (e : RM8) (i : Byte)
  /-- `C6 /1 to /7 (refused)` (C6; R456). -/
  | movC6Refused (reg : BitVec 3) (e : RM8) (i : Byte)
  /-- `MOV Ev, Iw` (C7 /0; R608). -/
  | movEvIw (e : RM16) (i : Word)
  /-- `C7 /1 to /7 (refused)` (C7; R456). -/
  | movC7Refused (reg : BitVec 3) (e : RM16) (i : Word)
  /-- `ROL Eb, 1` (D0 /0; R811). -/
  | rolEb1 (e : RM8)
  /-- `ROR Eb, 1` (D0 /1; R812). -/
  | rorEb1 (e : RM8)
  /-- `RCL Eb, 1` (D0 /2; R813). -/
  | rclEb1 (e : RM8)
  /-- `RCR Eb, 1` (D0 /3; R814). -/
  | rcrEb1 (e : RM8)
  /-- `SHL Eb, 1` (D0 /4; R815). -/
  | shlEb1 (e : RM8)
  /-- `SHR Eb, 1` (D0 /5; R816). -/
  | shrEb1 (e : RM8)
  /-- `SETMO Eb, 1` (D0 /6; R818). -/
  | setmoEb1 (e : RM8)
  /-- `SAR Eb, 1` (D0 /7; R817). -/
  | sarEb1 (e : RM8)
  /-- `ROL Ev, 1` (D1 /0; R811). -/
  | rolEv1 (e : RM16)
  /-- `ROR Ev, 1` (D1 /1; R812). -/
  | rorEv1 (e : RM16)
  /-- `RCL Ev, 1` (D1 /2; R813). -/
  | rclEv1 (e : RM16)
  /-- `RCR Ev, 1` (D1 /3; R814). -/
  | rcrEv1 (e : RM16)
  /-- `SHL Ev, 1` (D1 /4; R815). -/
  | shlEv1 (e : RM16)
  /-- `SHR Ev, 1` (D1 /5; R816). -/
  | shrEv1 (e : RM16)
  /-- `SETMO Ev, 1` (D1 /6; R818). -/
  | setmoEv1 (e : RM16)
  /-- `SAR Ev, 1` (D1 /7; R817). -/
  | sarEv1 (e : RM16)
  /-- `ROL Eb, CL` (D2 /0; R811). -/
  | rolEbCl (e : RM8)
  /-- `ROR Eb, CL` (D2 /1; R812). -/
  | rorEbCl (e : RM8)
  /-- `RCL Eb, CL` (D2 /2; R813). -/
  | rclEbCl (e : RM8)
  /-- `RCR Eb, CL` (D2 /3; R814). -/
  | rcrEbCl (e : RM8)
  /-- `SHL Eb, CL` (D2 /4; R815). -/
  | shlEbCl (e : RM8)
  /-- `SHR Eb, CL` (D2 /5; R816). -/
  | shrEbCl (e : RM8)
  /-- `SETMOC Eb, CL` (D2 /6; R818). -/
  | setmocEbCl (e : RM8)
  /-- `SAR Eb, CL` (D2 /7; R817). -/
  | sarEbCl (e : RM8)
  /-- `ROL Ev, CL` (D3 /0; R811). -/
  | rolEvCl (e : RM16)
  /-- `ROR Ev, CL` (D3 /1; R812). -/
  | rorEvCl (e : RM16)
  /-- `RCL Ev, CL` (D3 /2; R813). -/
  | rclEvCl (e : RM16)
  /-- `RCR Ev, CL` (D3 /3; R814). -/
  | rcrEvCl (e : RM16)
  /-- `SHL Ev, CL` (D3 /4; R815). -/
  | shlEvCl (e : RM16)
  /-- `SHR Ev, CL` (D3 /5; R816). -/
  | shrEvCl (e : RM16)
  /-- `SETMOC Ev, CL` (D3 /6; R818). -/
  | setmocEvCl (e : RM16)
  /-- `SAR Ev, CL` (D3 /7; R817). -/
  | sarEvCl (e : RM16)
  /-- `AAM Ib` (D4; R744). -/
  | aamIb (i : Byte)
  /-- `AAD Ib` (D5; R745). -/
  | aadIb (i : Byte)
  /-- `ESC` (D8; R1113). -/
  | esc (code : BitVec 6) (e : RM16)
  /-- `LOOPNZ rel8` (E0; R1016). -/
  | loopnz (rel : Byte)
  /-- `LOOPZ rel8` (E1; R1015). -/
  | loopz (rel : Byte)
  /-- `LOOP rel8` (E2; R1014). -/
  | loop (rel : Byte)
  /-- `JCXZ rel8` (E3; R1017). -/
  | jcxz (rel : Byte)
  /-- `IN AL, Ib` (E4; R622). -/
  | inAlIb (i : Byte)
  /-- `IN AX, Ib` (E5; R622). -/
  | inAxIb (i : Byte)
  /-- `OUT Ib, AL` (E6; R624). -/
  | outIbAl (i : Byte)
  /-- `OUT Ib, AX` (E7; R624). -/
  | outIbAx (i : Byte)
  /-- `CALL rel16` (E8; R1006). -/
  | callRel16 (rel : Word)
  /-- `JMP rel16` (E9; R1001). -/
  | jmpRel16 (rel : Word)
  /-- `JMP ptr16:16` (EA; R1002). -/
  | jmpPtr (off : Word) (seg : Word)
  /-- `JMP rel8` (EB; R1000). -/
  | jmpRel8 (rel : Byte)
  /-- `TEST Eb, Ib` (F6 /0; R804). -/
  | testEbIb (e : RM8) (i : Byte)
  /-- `TEST Eb, Ib (alias of /0)` (F6 /1; R455). -/
  | testEbIbAlias (e : RM8) (i : Byte)
  /-- `NOT Eb` (F6 /2; R805). -/
  | notEb (e : RM8)
  /-- `NEG Eb` (F6 /3; R714). -/
  | negEb (e : RM8)
  /-- `MUL Eb` (F6 /4; R720). -/
  | mulEb (e : RM8)
  /-- `IMUL Eb` (F6 /5; R721). -/
  | imulEb (e : RM8)
  /-- `DIV Eb` (F6 /6; R722). -/
  | divEb (e : RM8)
  /-- `IDIV Eb` (F6 /7; R723). -/
  | idivEb (e : RM8)
  /-- `TEST Ev, Iw` (F7 /0; R804). -/
  | testEvIw (e : RM16) (i : Word)
  /-- `TEST Ev, Iw (alias of /0)` (F7 /1; R455). -/
  | testEvIwAlias (e : RM16) (i : Word)
  /-- `NOT Ev` (F7 /2; R805). -/
  | notEv (e : RM16)
  /-- `NEG Ev` (F7 /3; R714). -/
  | negEv (e : RM16)
  /-- `MUL Ev` (F7 /4; R720). -/
  | mulEv (e : RM16)
  /-- `IMUL Ev` (F7 /5; R721). -/
  | imulEv (e : RM16)
  /-- `DIV Ev` (F7 /6; R722). -/
  | divEv (e : RM16)
  /-- `IDIV Ev` (F7 /7; R723). -/
  | idivEv (e : RM16)
  /-- `INC Eb` (FE /0; R711). -/
  | incEb (e : RM8)
  /-- `DEC Eb` (FE /1; R713). -/
  | decEb (e : RM8)
  /-- `FE /2 to /7 (refused)` (FE; R456). -/
  | feRefused (reg : BitVec 3) (e : RM8)
  /-- `INC Ev` (FF /0; R711). -/
  | incEv (e : RM16)
  /-- `DEC Ev` (FF /1; R713). -/
  | decEv (e : RM16)
  /-- `CALL Ev` (FF /2; R1008). -/
  | callEv (e : RM16)
  /-- `CALL Mp` (FF /3; R1009). -/
  | callMp (m : Mem)
  /-- `JMP Ev` (FF /4; R1004). -/
  | jmpEv (e : RM16)
  /-- `JMP Mp` (FF /5; R1005). -/
  | jmpMp (m : Mem)
  /-- `PUSH Ev` (FF /6; R612). -/
  | pushEv (e : RM16)
  /-- `CALL Mp, mod = 11 (refused)` (FF; R456). -/
  | callMpRegRefused (r : Reg16)
  /-- `JMP Mp, mod = 11 (refused)` (FF; R456). -/
  | jmpMpRegRefused (r : Reg16)
  /-- `FF /7 (refused)` (FF /7; R456). -/
  | ff7Refused (e : RM16)
  /-- `PUSH ES` (06; R611). -/
  | pushEs
  /-- `POP ES` (07; R614). -/
  | popEs
  /-- `PUSH CS` (0E; R611). -/
  | pushCs
  /-- `POP CS (refused)` (0F; R456). -/
  | popCsRefused
  /-- `PUSH SS` (16; R611). -/
  | pushSs
  /-- `POP SS` (17; R614). -/
  | popSs
  /-- `PUSH DS` (1E; R611). -/
  | pushDs
  /-- `POP DS` (1F; R614). -/
  | popDs
  /-- `ES: (segment override prefix)` (26; R1111). -/
  | prefixEs
  /-- `CS: (segment override prefix)` (2E; R1111). -/
  | prefixCs
  /-- `SS: (segment override prefix)` (36; R1111). -/
  | prefixSs
  /-- `DS: (segment override prefix)` (3E; R1111). -/
  | prefixDs
  /-- `DAA` (27; R740). -/
  | daa
  /-- `DAS` (2F; R741). -/
  | das
  /-- `AAA` (37; R742). -/
  | aaa
  /-- `AAS` (3F; R743). -/
  | aas
  /-- `NOP (XCHG AX, AX)` (90; R1109). -/
  | nop
  /-- `CBW` (98; R750). -/
  | cbw
  /-- `CWD` (99; R751). -/
  | cwd
  /-- `WAIT` (9B; R1106). -/
  | wait
  /-- `PUSHF` (9C; R616). -/
  | pushf
  /-- `POPF` (9D; R617). -/
  | popf
  /-- `SAHF` (9E; R631). -/
  | sahf
  /-- `LAHF` (9F; R630). -/
  | lahf
  /-- `MOVSB` (A4; R902). -/
  | movsb
  /-- `MOVSW` (A5; R902). -/
  | movsw
  /-- `CMPSB` (A6; R903). -/
  | cmpsb
  /-- `CMPSW` (A7; R903). -/
  | cmpsw
  /-- `STOSB` (AA; R906). -/
  | stosb
  /-- `STOSW` (AB; R906). -/
  | stosw
  /-- `LODSB` (AC; R905). -/
  | lodsb
  /-- `LODSW` (AD; R905). -/
  | lodsw
  /-- `SCASB` (AE; R904). -/
  | scasb
  /-- `SCASW` (AF; R904). -/
  | scasw
  /-- `RET (alias of C3)` (C1; R455). -/
  | retAlias
  /-- `RET` (C3; R1010). -/
  | ret
  /-- `RETF (alias of CB)` (C9; R455). -/
  | retfAlias
  /-- `RETF` (CB; R1012). -/
  | retf
  /-- `INT 3` (CC; R1019). -/
  | int3
  /-- `INTO` (CE; R1020). -/
  | into
  /-- `IRET` (CF; R1021). -/
  | iret
  /-- `SALC` (D6; R752). -/
  | salc
  /-- `XLAT` (D7; R626). -/
  | xlat
  /-- `IN AL, DX` (EC; R623). -/
  | inAlDx
  /-- `IN AX, DX` (ED; R623). -/
  | inAxDx
  /-- `OUT DX, AL` (EE; R625). -/
  | outDxAl
  /-- `OUT DX, AX` (EF; R625). -/
  | outDxAx
  /-- `LOCK (prefix)` (F0; R1110). -/
  | prefixLock
  /-- `REPNE (prefix)` (F2; R1112). -/
  | prefixRepne
  /-- `REP / REPE (prefix)` (F3; R1112). -/
  | prefixRep
  /-- `HLT` (F4; R1108). -/
  | hlt
  /-- `CMC` (F5; R1102). -/
  | cmc
  /-- `CLC` (F8; R1100). -/
  | clc
  /-- `STC` (F9; R1101). -/
  | stc
  /-- `CLI` (FA; R1105). -/
  | cli
  /-- `STI` (FB; R1107). -/
  | sti
  /-- `CLD` (FC; R1103). -/
  | cld
  /-- `STD` (FD; R1104). -/
  | std
  /-- `LOCK (prefix, alias of F0)` (F1; R455). -/
  | prefixLockAlias
  deriving DecidableEq, Repr

end Sys2Proof
end

