-- ==== Sys2Proof/Machine/State.lean ====
section
/-! DEFINITION. The state of the machine (spec 10 R144): CPU, BIU, bus, devices, environment inputs, parameters, history and
marks, all plain data; the reasons a step can stop; and the state after reset (70 R1507). INVENTORY.md lists every field
with its rule and reset value. -/

namespace Sys2Proof.Machine

/-! Why a step stops. -/

/-- The faults of the model. The 8088 itself has none (60 R1201): its exceptions are interrupt entries. -/
inductive Fault where
  /-- The reason the spec gives for reading an unwritten register (10 R145). Raised by nobody: a register the log names a
  value for reads as that value (log 2); a host can only find it in `marks`. Safe. -/
  | unwrittenRegister
  /-- Raised by the instruction step when the bytes of an instruction end early; unreachable, the queue waits for the next
  fetch (60 R1202). Safe. -/
  | truncatedStream
  deriving DecidableEq, Repr

/-- The refusals of the model. -/
inductive Refusal where
  /-- An arm of `exec` whose instruction has no meaning yet. Safe. -/
  | notModelled (mnemonic : String)
  /-- `UnmodelledForm` at a linear address (30 R456, R457): raised by the meanings of the refused rows. Safe. -/
  | unmodelledForm (addr : LinAddr) (opcode : Byte)
  /-- `UndocumentedOpcode` at a linear address (30 R455, R457): raised by the meanings of the alias rows under
  `UNDOC_MODE = refuse`. Safe. -/
  | undocumentedOpcode (addr : LinAddr) (opcode : Byte)
  /-- `UnmodelledForm` of an interrupt acknowledge (61 R1341): 8080 mode, or a cascaded level. Raised by the boundary
  entry. Safe. -/
  | acknowledgeForm
  /-- `UnmodelledForm` of a DMA transfer on a channel (61 R1414): memory-to-memory, cascade, type 11, software request in
  demand mode. Marked by the scheduler step, raised by the step after it. Safe. -/
  | dmaForm (channel : Nat)
  deriving DecidableEq, Repr

/-! The CPU. -/

/-- One value per general register (10 R100). -/
structure RegFile (α : Type) where
  ax : α
  cx : α
  dx : α
  bx : α
  sp : α
  bp : α
  si : α
  di : α
  deriving DecidableEq, Repr

/-- The segment registers (10 R105). -/
structure SegFile where
  es : Word
  cs : Word
  ss : Word
  ds : Word
  deriving DecidableEq, Repr

/-- The nine defined flags (10 R120). The reserved bits of FLAGS are hardwired (10 R121) and stand in `Flags.image`. -/
structure Flags where
  cf : Bool
  pf : Bool
  af : Bool
  zf : Bool
  sf : Bool
  tf : Bool
  ifl : Bool
  df : Bool
  ovf : Bool
  deriving DecidableEq, Repr

/-- The prefix kinds seen (10 R141). -/
structure PrefixMask where
  es : Bool
  cs : Bool
  ss : Bool
  ds : Bool
  lock : Bool
  repne : Bool
  rep : Bool
  deriving DecidableEq, Repr

/-- The per-instruction prefix state (10 R141). -/
structure PrefixState where
  mask : PrefixMask
  segOverride : Option Sreg
  rep : Option RepKind
  deriving DecidableEq, Repr

/-- The REP string instruction in progress (31 R540). -/
structure RepRun where
  op : StringOp
  wide : Bool
  rep : RepKind
  segOverride : Option Sreg
  ipStart : Word
  ipLastPfx : Word
  deriving DecidableEq, Repr

/-- The CPU's state (10 R144). `decoding` is the model's own: the prefixes of one instruction go on in the next step of the
model (30 R411; log 13). -/
structure Cpu where
  regs : RegFile Word
  written : RegFile Bool
  segs : SegFile
  ip : Word
  flags : Flags
  halted : Bool
  inhibit : Bool
  nmiLatch : Bool
  nmiPrev : Bool
  tempTF : Bool
  trapPending : Bool
  repRun : Option RepRun
  pfx : PrefixState
  f1 : Bool
  ipStart : Word
  ipLastPfx : Word
  decoding : Bool
  deriving DecidableEq, Repr

/-! The bus interface unit (21). -/

/-- The T-states (21 R301). -/
inductive TState where
  | t1 | t2 | t3 | tw | t4 | ti
  deriving DecidableEq, Repr

/-- The bus cycle kinds (21 R304). -/
inductive BusState where
  | inta | ioRead | ioWrite | halt | codeFetch | memRead | memWrite | passive
  deriving DecidableEq, Repr

/-- The access types of a memory cycle (21 R305). -/
inductive AccessType where
  | altData | stack | code | data
  deriving DecidableEq, Repr

/-- The queue operations of the cycle record, one a clock (21 R324). -/
inductive QueueOp where
  | idle | first | subsequent | flush
  deriving DecidableEq, Repr

/-- A bus cycle asked for: kind, access type, address, and the byte it writes, if it writes one (21 R300). -/
structure BusRequest where
  kind : BusState
  access : AccessType
  addr : LinAddr
  data : Option Byte
  deriving DecidableEq, Repr

/-- The cycle record of the T-state machine, one clock of it (21 R300): the queue operation of the clock and the byte it
took from the queue (R324) among its fields. `incoming` is the model's own: the byte that a read in its data phase
will capture (R302). -/
structure BusCycle where
  tstate : TState
  busState : BusState
  access : AccessType
  addr : LinAddr
  data : Byte
  incoming : Option Byte
  waits : Nat
  pending : Option BusRequest
  clock : Nat
  queueOp : QueueOp
  queueByte : Option Byte
  deriving DecidableEq, Repr

/-- A queued byte and the address it was fetched from (21 R320). -/
structure QueueByte where
  byte : Byte
  addr : LinAddr
  deriving DecidableEq, Repr

/-- The BIU's state (21 R300). `fetching` is the address of a code fetch in progress whose byte is for the queue (21 R322,
R327). -/
structure Biu where
  queue : List QueueByte
  fetching : Option LinAddr
  pfp : Word
  fetchSuspended : Bool
  cycle : BusCycle
  deriving DecidableEq, Repr

/-! The bus (20). -/

/-- A ROM region: every byte of it has the ROM flag (20 R200). -/
structure RomRegion where
  base : Nat
  size : Nat
  deriving DecidableEq, Repr

/-- The owner of an MMIO granule (20 R211). -/
inductive GranuleOwner where
  | memory
  | rom
  | device (id : Nat)
  deriving DecidableEq, Repr

/-- One entry of the MMIO map: granule number and owner; a granule with an entry has the MMIO flag (20 R211). -/
structure GranuleRoute where
  granule : Nat
  owner : GranuleOwner
  deriving DecidableEq, Repr

/-- Memory as a canonical list of cells: addresses rising, no cell equal to what an unlisted byte reads as. -/
abbrev Memory := List Host.Cell

/-- The bus's state (20 R200). -/
structure Bus where
  mem : Memory
  romRegions : List RomRegion
  mmioMap : List GranuleRoute
  convMemCap : Nat
  deriving DecidableEq, Repr

/-! The devices (61). -/

/-- Where the PIC stands in its initialisation sequence (61 R1330). -/
inductive PicInit where
  | uninit | wantIcw2 | wantIcw3 | wantIcw4 | ready
  deriving DecidableEq, Repr

/-- Which register a PIC read at A0 = 0 returns (61 R1330). -/
inductive PicReadSel where
  | irr | isr
  deriving DecidableEq, Repr

/-- The 8259A (61 R1330). Its output INT is a function of these (61 R1340). -/
structure Pic where
  ir : Byte
  irr : Byte
  isr : Byte
  imr : Byte
  edgePrev : Byte
  init : PicInit
  ltim : Bool
  sngl : Bool
  ic4 : Bool
  base : Byte
  icw3 : Byte
  upm : Bool
  aeoi : Bool
  buf : Bool
  ms : Bool
  sfnm : Bool
  readSel : PicReadSel
  poll : Bool
  smm : Bool
  rotAeoi : Bool
  lowest : BitVec 3
  deriving DecidableEq, Repr

/-- Which count bytes a PIT counter reads and writes (61 R1350). -/
inductive PitRL where
  | lsb | msb | both
  deriving DecidableEq, Repr

/-- The PIT modes (61 R1350). -/
inductive PitMode where
  | m0 | m1 | m2 | m3 | m4 | m5
  deriving DecidableEq, Repr

/-- One 8253 counter (61 R1350). `loaded` and `free` are the model's: a first load has happened (R1364), and OUT and CE are
draws until the next control word (R1355). -/
structure PitCounter where
  cr : Word
  ce : Word
  ol : Word
  latched : Bool
  rl : PitRL
  mode : PitMode
  bcd : Bool
  wff : Bool
  rff : Bool
  out : Bool
  gate : Bool
  gateRise : Bool
  programmed : Bool
  countValid : Bool
  loadPending : Bool
  counting : Bool
  extra : Bool
  expired : Bool
  strobe : Bool
  loaded : Bool
  free : Bool
  deriving DecidableEq, Repr

/-- The 8253 (61 R1350). -/
structure Pit where
  c0 : PitCounter
  c1 : PitCounter
  c2 : PitCounter
  deriving DecidableEq, Repr

/-- One channel of the 8237A with its page register (61 R1400). -/
structure DmaChannel where
  baseAddr : Word
  curAddr : Word
  baseCount : Word
  curCount : Word
  mode : BitVec 6
  mask : Bool
  req : Bool
  tc : Bool
  page : BitVec 4
  deriving DecidableEq, Repr

/-- The 8237A (61 R1400). -/
structure Dma where
  ch0 : DmaChannel
  ch1 : DmaChannel
  ch2 : DmaChannel
  ch3 : DmaChannel
  command : Byte
  temp : Byte
  ff : Bool
  rotLast : BitVec 2
  deriving DecidableEq, Repr

/-- The scheduler's accumulators (61 R1310). -/
structure Sched where
  sysFrac : Nat
  pitRem : Nat
  usFrac : Nat
  extra : Nat
  imminent : Bool
  deriving DecidableEq, Repr

/-- The devices' state (61 R1300). -/
structure Devices where
  pic : Pic
  pit : Pit
  dma : Dma
  nmiMask : Byte
  ppiB : Byte
  refreshReq : Bool
  sched : Sched
  deriving DecidableEq, Repr

/-! The environment, the parameters, the history, the marks. -/

/-- The environment's answer to an oracle read: the byte, and the wait states the device asks for (70 R1531, 20 R210), in
system ticks as the environment gives it and in CPU clocks once it is converted (21 R303). -/
structure OracleAnswer where
  value : Byte
  waits : Nat
  deriving DecidableEq, Repr

/-- The environment's inputs (61 R1302, 70 R1531): the lines, changed by host operations only, and the values the
environment will give at the points where a step samples it (log 7 to 10). -/
structure Env where
  ir : Byte
  nmiSource : Bool
  dreq : BitVec 4
  dreqSamples : List (BitVec 4)
  answers : List OracleAnswer
  writeWaits : List Nat
  cycles : List Nat
  euClocks : List Nat
  deriving DecidableEq, Repr

/-- The parameters a model takes (00 R8), but for those that are bus state or environment inputs. -/
structure Params where
  undocMode : UndocMode
  divErrorReturn : DivErrorReturn
  repNegateUnsigned : Bool
  repResume : RepResume
  repTfPerIteration : Bool
  unmappedIoRead : Byte
  systemCrystalHz : Nat
  clockFactor : ClockFactor
  imminentThreshold : Nat
  daaThreshold : DaaThreshold
  testAsserted : Bool
  stopAddr : Option LinAddr
  oraclePorts : List Word
  cpuVariant : CpuVariant
  deriving DecidableEq, Repr

/-- A bus event of the history (20 R241), with its agent, address or port, and value. -/
inductive BusEvent where
  | codeFetch (a : LinAddr) (v : Byte)
  | memRead (access : AccessType) (a : LinAddr) (v : Byte)
  | memWrite (access : AccessType) (a : LinAddr) (v : Byte)
  | ioRead (port : Word) (v : Byte)
  | ioWrite (port : Word) (v : Byte)
  | intaFirst
  | intaVector (v : Byte)
  | dmaRead (channel : Nat) (a : LinAddr) (v : Byte)
  | dmaWrite (channel : Nat) (a : LinAddr) (v : Byte)
  deriving DecidableEq, Repr

/-- The fault and refusal marks (10 R144). -/
structure Marks where
  fault : Option Fault
  refusal : Option Refusal
  deriving DecidableEq, Repr

/-- The complete state record (10 R144). `draws` is the model's own: how many free values have been used (log 6). -/
structure State where
  cpu : Cpu
  biu : Biu
  bus : Bus
  dev : Devices
  env : Env
  params : Params
  history : List BusEvent
  marks : Marks
  draws : Nat
  deriving DecidableEq, Repr

/-! The state after reset (70 R1507). -/

/-- No flag set: the image reads 0xF002 (10 R150). -/
def Flags.clear : Flags :=
  { cf := false, pf := false, af := false, zf := false, sf := false, tf := false, ifl := false, df := false, ovf := false }

/-- No prefix seen (10 R141). -/
def PrefixState.none : PrefixState :=
  { mask := { es := false, cs := false, ss := false, ds := false, lock := false, repne := false, rep := false }
    segOverride := Option.none
    rep := Option.none }

/-- The CPU after reset (10 R150, 70 R1507); the general registers by log 2. -/
def Cpu.reset : Cpu :=
  { regs := { ax := 0, cx := 0, dx := 0, bx := 0, sp := 0, bp := 0, si := 0, di := 0 }
    written := { ax := false, cx := false, dx := false, bx := false, sp := false, bp := false, si := false, di := false }
    segs := { es := 0, cs := 0xFFFF, ss := 0, ds := 0 }
    ip := 0
    flags := Flags.clear
    halted := false
    inhibit := false
    nmiLatch := false
    nmiPrev := false
    tempTF := false
    trapPending := false
    repRun := none
    pfx := PrefixState.none
    f1 := false
    ipStart := 0
    ipLastPfx := 0
    decoding := false }

/-- The idle bus (70 R1507); the fields the spec names no value for by log 20. -/
def BusCycle.idle : BusCycle :=
  { tstate := .ti, busState := .passive, access := .code, addr := 0, data := 0, incoming := none, waits := 0, pending := none
    clock := 0, queueOp := .idle, queueByte := none }

/-- The BIU after reset (70 R1507). -/
def Biu.reset : Biu :=
  { queue := [], fetching := none, pfp := 0, fetchSuspended := false, cycle := BusCycle.idle }

/-- The bus at power-on: nothing listed in memory; the machine descriptor of log 4. -/
def Bus.reset : Bus :=
  { mem := [], romRegions := [], mmioMap := [], convMemCap := 0xA0000 }

/-- The PIC after reset: uninitialised (61 R1343); its registers by log 5. -/
def Pic.reset : Pic :=
  { ir := 0, irr := 0, isr := 0, imr := 0, edgePrev := 0, init := .uninit, ltim := false, sngl := false, ic4 := false
    base := 0, icw3 := 0, upm := false, aeoi := false, buf := false, ms := false, sfnm := false, readSel := .irr
    poll := false, smm := false, rotAeoi := false, lowest := 7 }

/-- A PIT counter after reset: unprogrammed, not counting (61 R1367); its registers by log 5. -/
def PitCounter.reset (gate : Bool) : PitCounter :=
  { cr := 0, ce := 0, ol := 0, latched := false, rl := .lsb, mode := .m0, bcd := false, wff := false, rff := false
    out := false, gate := gate, gateRise := false, programmed := false, countValid := false, loadPending := false
    counting := false, extra := false, expired := false, strobe := false, loaded := false, free := false }

/-- The PIT after reset: GATE0 = GATE1 = 1, GATE2 follows `ppi_b` bit 0 (61 R1367). -/
def Pit.reset : Pit :=
  { c0 := PitCounter.reset true, c1 := PitCounter.reset true, c2 := PitCounter.reset false }

/-- A DMA channel after reset: masked, no request, no terminal count (61 R1415); its registers by log 5. -/
def DmaChannel.reset : DmaChannel :=
  { baseAddr := 0, curAddr := 0, baseCount := 0, curCount := 0, mode := 0, mask := true, req := false, tc := false
    page := 0 }

/-- The DMA controller after reset: master-cleared (61 R1407, R1415). -/
def Dma.reset : Dma :=
  { ch0 := DmaChannel.reset, ch1 := DmaChannel.reset, ch2 := DmaChannel.reset, ch3 := DmaChannel.reset
    command := 0, temp := 0, ff := false, rotLast := 3 }

/-- The scheduler accumulators at reset (61 R1310). -/
def Sched.reset : Sched :=
  { sysFrac := 0, pitRem := 0, usFrac := 0, extra := 0, imminent := false }

/-- The devices after reset (70 R1506). -/
def Devices.reset : Devices :=
  { pic := Pic.reset, pit := Pit.reset, dma := Dma.reset, nmiMask := 0, ppiB := 0, refreshReq := false
    sched := Sched.reset }

/-- The environment's inputs of `State.reset`: every line low, nothing scheduled (log 7 to 10). -/
def Env.quiet : Env :=
  { ir := 0, nmiSource := false, dreq := 0, dreqSamples := [], answers := [], writeWaits := [], cycles := [], euClocks := [] }

/-- The parameters of `State.reset`: the defaults of 00 R8, and the open ones by log 4. -/
def Params.model : Params :=
  { undocMode := .refuse
    divErrorReturn := .next
    repNegateUnsigned := false
    repResume := .lastPrefix
    repTfPerIteration := true
    unmappedIoRead := 0xFF
    systemCrystalHz := 14318180
    clockFactor := .divisor 3
    imminentThreshold := 0
    daaThreshold := .intel
    testAsserted := true
    stopAddr := none
    oraclePorts := []
    cpuVariant := .i8088 }

/-- The machine right after reset (70 R1500, R1507). -/
def State.reset : State :=
  { cpu := Cpu.reset
    biu := Biu.reset
    bus := Bus.reset
    dev := Devices.reset
    env := Env.quiet
    params := Params.model
    history := []
    marks := { fault := none, refusal := none }
    draws := 0 }

end Sys2Proof.Machine
end

