-- ==== Sys2Proof/Machine/Memory.lean ====
section
/-! DEFINITION. Memory as a canonical list of cells (20 R200): addresses strictly rising and below 2^20, no cell equal to
what an unlisted byte reads as (log 3). -/

namespace Sys2Proof.Machine

/-- What a byte of memory that nothing has written reads as (D14 leaves it to the host; log 3). -/
def unlistedByte : Byte := 0

/-- The byte at an address (20 R210). -/
def memGet : Memory → Nat → Byte
  | [], _ => unlistedByte
  | c :: m, a => if c.1 = a then c.2 else memGet m a

/-- A cell in front of a memory, left out when it is what an unlisted byte reads as. -/
def memCons (a : Nat) (v : Byte) (m : Memory) : Memory :=
  if v = unlistedByte then m else (a, v) :: m

/-- The memory with one byte written (20 R212), keeping the canonical form. -/
def memSet : Memory → Nat → Byte → Memory
  | [], a, v => memCons a v []
  | c :: m, a, v =>
    if a < c.1 then memCons a v (c :: m)
    else if a = c.1 then memCons a v m
    else c :: memSet m a v

/-- All cells from an address on: rising, inside the address space, none equal to an unlisted byte. -/
def memWfFrom : Nat → Memory → Bool
  | _, [] => true
  | lo, c :: m => decide (lo ≤ c.1) && decide (c.1 < 2 ^ 20) && decide (c.2 ≠ unlistedByte) && memWfFrom (c.1 + 1) m

/-- The canonical form of memory. -/
def Memory.wf (m : Memory) : Bool := memWfFrom 0 m

end Sys2Proof.Machine
end

