-- ==== Sys2Proof/WellFormed.lean ====
section
/-! DEFINITION. When an instruction term is one that some encoding spells: the checks the types of Syntax.lean leave open.
`[BP]` without a displacement has no encoding (30 R421: mod = 00, rm = 110 is the direct form), a `/1 to /7` row has a
non-zero reg field (30 R436), group 4's refused rows have reg 2 to 7 (30 R434), and 90 is NOP, not XCHG AX, AX (40 R621). -/

namespace Sys2Proof

/-- The memory operand has an encoding (30 R421). -/
def Mem.wf : Mem → Bool
  | .base b => b != .bp
  | .baseD8 _ _ => true
  | .baseD16 _ _ => true
  | .direct _ => true

/-- The byte operand has an encoding (30 R420). -/
def RM8.wf : RM8 → Bool
  | .reg _ => true
  | .mem m => m.wf

/-- The word operand has an encoding (30 R420). -/
def RM16.wf : RM16 → Bool
  | .reg _ => true
  | .mem m => m.wf

/-- The instruction is the decoding of some bytes (30 R400 to R439). -/
def Instr.wf : Instr → Bool
  | .addEbGb e _ => e.wf
  | .addEvGv e _ => e.wf
  | .addGbEb _ e => e.wf
  | .addGvEv _ e => e.wf
  | .addAlIb _ => true
  | .addAxIw _ => true
  | .orEbGb e _ => e.wf
  | .orEvGv e _ => e.wf
  | .orGbEb _ e => e.wf
  | .orGvEv _ e => e.wf
  | .orAlIb _ => true
  | .orAxIw _ => true
  | .adcEbGb e _ => e.wf
  | .adcEvGv e _ => e.wf
  | .adcGbEb _ e => e.wf
  | .adcGvEv _ e => e.wf
  | .adcAlIb _ => true
  | .adcAxIw _ => true
  | .sbbEbGb e _ => e.wf
  | .sbbEvGv e _ => e.wf
  | .sbbGbEb _ e => e.wf
  | .sbbGvEv _ e => e.wf
  | .sbbAlIb _ => true
  | .sbbAxIw _ => true
  | .andEbGb e _ => e.wf
  | .andEvGv e _ => e.wf
  | .andGbEb _ e => e.wf
  | .andGvEv _ e => e.wf
  | .andAlIb _ => true
  | .andAxIw _ => true
  | .subEbGb e _ => e.wf
  | .subEvGv e _ => e.wf
  | .subGbEb _ e => e.wf
  | .subGvEv _ e => e.wf
  | .subAlIb _ => true
  | .subAxIw _ => true
  | .xorEbGb e _ => e.wf
  | .xorEvGv e _ => e.wf
  | .xorGbEb _ e => e.wf
  | .xorGvEv _ e => e.wf
  | .xorAlIb _ => true
  | .xorAxIw _ => true
  | .cmpEbGb e _ => e.wf
  | .cmpEvGv e _ => e.wf
  | .cmpGbEb _ e => e.wf
  | .cmpGvEv _ e => e.wf
  | .cmpAlIb _ => true
  | .cmpAxIw _ => true
  | .incR16 _ => true
  | .decR16 _ => true
  | .pushR16 _ => true
  | .popR16 _ => true
  | .jo _ => true
  | .jno _ => true
  | .jb _ => true
  | .jnb _ => true
  | .jz _ => true
  | .jnz _ => true
  | .jbe _ => true
  | .ja _ => true
  | .js _ => true
  | .jns _ => true
  | .jp _ => true
  | .jnp _ => true
  | .jl _ => true
  | .jge _ => true
  | .jle _ => true
  | .jg _ => true
  | .jccAlias _ _ => true
  | .addEbIb e _ => e.wf
  | .orEbIb e _ => e.wf
  | .adcEbIb e _ => e.wf
  | .sbbEbIb e _ => e.wf
  | .andEbIb e _ => e.wf
  | .subEbIb e _ => e.wf
  | .xorEbIb e _ => e.wf
  | .cmpEbIb e _ => e.wf
  | .addEvIw e _ => e.wf
  | .orEvIw e _ => e.wf
  | .adcEvIw e _ => e.wf
  | .sbbEvIw e _ => e.wf
  | .andEvIw e _ => e.wf
  | .subEvIw e _ => e.wf
  | .xorEvIw e _ => e.wf
  | .cmpEvIw e _ => e.wf
  | .addEbIbAlias e _ => e.wf
  | .orEbIbAlias e _ => e.wf
  | .adcEbIbAlias e _ => e.wf
  | .sbbEbIbAlias e _ => e.wf
  | .andEbIbAlias e _ => e.wf
  | .subEbIbAlias e _ => e.wf
  | .xorEbIbAlias e _ => e.wf
  | .cmpEbIbAlias e _ => e.wf
  | .addEvIbSx e _ => e.wf
  | .orEvIbSx e _ => e.wf
  | .adcEvIbSx e _ => e.wf
  | .sbbEvIbSx e _ => e.wf
  | .andEvIbSx e _ => e.wf
  | .subEvIbSx e _ => e.wf
  | .xorEvIbSx e _ => e.wf
  | .cmpEvIbSx e _ => e.wf
  | .testEbGb e _ => e.wf
  | .testEvGv e _ => e.wf
  | .xchgEbGb e _ => e.wf
  | .xchgEvGv e _ => e.wf
  | .movEbGb e _ => e.wf
  | .movEvGv e _ => e.wf
  | .movGbEb _ e => e.wf
  | .movGvEv _ e => e.wf
  | .movEwSw e _ => e.wf
  | .movEwSwAlias e _ => e.wf
  | .leaGvM _ m => m.wf
  | .leaGvRegRefused _ _ => true
  | .movEsEw e => e.wf
  | .movCsEwRefused1 e => e.wf
  | .movSsEw e => e.wf
  | .movDsEw e => e.wf
  | .movEsEwAlias e => e.wf
  | .movCsEwRefused5 e => e.wf
  | .movSsEwAlias e => e.wf
  | .movDsEwAlias e => e.wf
  | .popEv e => e.wf
  | .pop8FRefused reg e => reg != 0 && e.wf
  | .xchgAxR16 r => r != .ax
  | .callPtr _ _ => true
  | .movAlMoffs _ => true
  | .movAxMoffs _ => true
  | .movMoffsAl _ => true
  | .movMoffsAx _ => true
  | .testAlIb _ => true
  | .testAxIw _ => true
  | .movR8Ib _ _ => true
  | .movR16Iw _ _ => true
  | .retIwAlias _ => true
  | .retIw _ => true
  | .retfIwAlias _ => true
  | .retfIw _ => true
  | .intIb _ => true
  | .lesGvMp _ m => m.wf
  | .lesGvRegRefused _ _ => true
  | .ldsGvMp _ m => m.wf
  | .ldsGvRegRefused _ _ => true
  | .movEbIb e _ => e.wf
  | .movC6Refused reg e _ => reg != 0 && e.wf
  | .movEvIw e _ => e.wf
  | .movC7Refused reg e _ => reg != 0 && e.wf
  | .rolEb1 e => e.wf
  | .rorEb1 e => e.wf
  | .rclEb1 e => e.wf
  | .rcrEb1 e => e.wf
  | .shlEb1 e => e.wf
  | .shrEb1 e => e.wf
  | .setmoEb1 e => e.wf
  | .sarEb1 e => e.wf
  | .rolEv1 e => e.wf
  | .rorEv1 e => e.wf
  | .rclEv1 e => e.wf
  | .rcrEv1 e => e.wf
  | .shlEv1 e => e.wf
  | .shrEv1 e => e.wf
  | .setmoEv1 e => e.wf
  | .sarEv1 e => e.wf
  | .rolEbCl e => e.wf
  | .rorEbCl e => e.wf
  | .rclEbCl e => e.wf
  | .rcrEbCl e => e.wf
  | .shlEbCl e => e.wf
  | .shrEbCl e => e.wf
  | .setmocEbCl e => e.wf
  | .sarEbCl e => e.wf
  | .rolEvCl e => e.wf
  | .rorEvCl e => e.wf
  | .rclEvCl e => e.wf
  | .rcrEvCl e => e.wf
  | .shlEvCl e => e.wf
  | .shrEvCl e => e.wf
  | .setmocEvCl e => e.wf
  | .sarEvCl e => e.wf
  | .aamIb _ => true
  | .aadIb _ => true
  | .esc _ e => e.wf
  | .loopnz _ => true
  | .loopz _ => true
  | .loop _ => true
  | .jcxz _ => true
  | .inAlIb _ => true
  | .inAxIb _ => true
  | .outIbAl _ => true
  | .outIbAx _ => true
  | .callRel16 _ => true
  | .jmpRel16 _ => true
  | .jmpPtr _ _ => true
  | .jmpRel8 _ => true
  | .testEbIb e _ => e.wf
  | .testEbIbAlias e _ => e.wf
  | .notEb e => e.wf
  | .negEb e => e.wf
  | .mulEb e => e.wf
  | .imulEb e => e.wf
  | .divEb e => e.wf
  | .idivEb e => e.wf
  | .testEvIw e _ => e.wf
  | .testEvIwAlias e _ => e.wf
  | .notEv e => e.wf
  | .negEv e => e.wf
  | .mulEv e => e.wf
  | .imulEv e => e.wf
  | .divEv e => e.wf
  | .idivEv e => e.wf
  | .incEb e => e.wf
  | .decEb e => e.wf
  | .feRefused reg e => decide (2 ≤ reg.toNat) && e.wf
  | .incEv e => e.wf
  | .decEv e => e.wf
  | .callEv e => e.wf
  | .callMp m => m.wf
  | .jmpEv e => e.wf
  | .jmpMp m => m.wf
  | .pushEv e => e.wf
  | .callMpRegRefused _ => true
  | .jmpMpRegRefused _ => true
  | .ff7Refused e => e.wf
  | .pushEs => true
  | .popEs => true
  | .pushCs => true
  | .popCsRefused => true
  | .pushSs => true
  | .popSs => true
  | .pushDs => true
  | .popDs => true
  | .prefixEs => true
  | .prefixCs => true
  | .prefixSs => true
  | .prefixDs => true
  | .daa => true
  | .das => true
  | .aaa => true
  | .aas => true
  | .nop => true
  | .cbw => true
  | .cwd => true
  | .wait => true
  | .pushf => true
  | .popf => true
  | .sahf => true
  | .lahf => true
  | .movsb => true
  | .movsw => true
  | .cmpsb => true
  | .cmpsw => true
  | .stosb => true
  | .stosw => true
  | .lodsb => true
  | .lodsw => true
  | .scasb => true
  | .scasw => true
  | .retAlias => true
  | .ret => true
  | .retfAlias => true
  | .retf => true
  | .int3 => true
  | .into => true
  | .iret => true
  | .salc => true
  | .xlat => true
  | .inAlDx => true
  | .inAxDx => true
  | .outDxAl => true
  | .outDxAx => true
  | .prefixLock => true
  | .prefixRepne => true
  | .prefixRep => true
  | .hlt => true
  | .cmc => true
  | .clc => true
  | .stc => true
  | .cli => true
  | .sti => true
  | .cld => true
  | .std => true
  | .prefixLockAlias => true

end Sys2Proof
end

