-- ==== Sys2Proof/Decode.lean ====
section
/-! DEFINITION. Bytes to instructions and back (30 R400 to R440). `decode` reads one row of spec/opcode_table.json, a prefix
byte being a row of its own; every byte decodes (30 R450), so its one error is that the bytes end first. `encode` writes the
words of an instruction from the same tables. -/

namespace Sys2Proof

/-- Why a byte list does not decode: it ends inside the instruction ("truncated stream", 60 R1202). -/
inductive DecodeError where
  | truncated
  deriving DecidableEq, Repr

/-! Register and addressing-mode numbers. -/

/-- The encoding of a byte register (10 R102). -/
def Reg8.num : Reg8 → BitVec 3
  | .al => 0 | .cl => 1 | .dl => 2 | .bl => 3 | .ah => 4 | .ch => 5 | .dh => 6 | .bh => 7

/-- The byte register of an encoding (10 R102). -/
def reg8Of (b : BitVec 3) : Reg8 :=
  match b.toNat with
  | 0 => .al | 1 => .cl | 2 => .dl | 3 => .bl | 4 => .ah | 5 => .ch | 6 => .dh | _ => .bh

/-- The encoding of a word register (10 R101). -/
def Reg16.num : Reg16 → BitVec 3
  | .ax => 0 | .cx => 1 | .dx => 2 | .bx => 3 | .sp => 4 | .bp => 5 | .si => 6 | .di => 7

/-- The word register of an encoding (10 R101). -/
def reg16Of (b : BitVec 3) : Reg16 :=
  match b.toNat with
  | 0 => .ax | 1 => .cx | 2 => .dx | 3 => .bx | 4 => .sp | 5 => .bp | 6 => .si | _ => .di

/-- The encoding of a segment register (10 R105). -/
def Sreg.num : Sreg → BitVec 2
  | .es => 0 | .cs => 1 | .ss => 2 | .ds => 3

/-- The segment register of an encoding (10 R105). -/
def sregOf (b : BitVec 2) : Sreg :=
  match b.toNat with
  | 0 => .es | 1 => .cs | 2 => .ss | _ => .ds

/-- The `rm` number of a base-and-index form (30 R421). -/
def Base.num : Base → BitVec 3
  | .bxSi => 0 | .bxDi => 1 | .bpSi => 2 | .bpDi => 3 | .si => 4 | .di => 5 | .bp => 6 | .bx => 7

/-- The base-and-index form of an `rm` number (30 R421). -/
def baseOf (b : BitVec 3) : Base :=
  match b.toNat with
  | 0 => .bxSi | 1 => .bxDi | 2 => .bpSi | 3 => .bpDi | 4 => .si | 5 => .di | 6 => .bp | _ => .bx

/-! Fields of the ModR/M byte (30 R402). -/

/-- `mod`, bits 7:6. -/
def modOf (b : Byte) : BitVec 2 := b.extractLsb' 6 2

/-- `reg`, bits 5:3. -/
def regOf (b : Byte) : BitVec 3 := b.extractLsb' 3 3

/-- `rm`, bits 2:0. -/
def rmOf (b : Byte) : BitVec 3 := b.extractLsb' 0 3

/-- The ModR/M byte of its fields (30 R402). -/
def modrmByte (m : BitVec 2) (reg rm : BitVec 3) : Byte := m ++ reg ++ rm

/-- A word of the instruction stream, low byte first (20 R220). -/
def wordBytes (w : Word) : List Byte := [w.setWidth 8, w.extractLsb' 8 8]

/-! The decoder. -/

/-- What the row still takes from the stream after its operands: nothing, an imm8 or an imm16 (30 R400, R424). -/
inductive Tail where
  | done (i : Instr)
  | ib (f : Byte → Instr)
  | iw (f : Word → Instr)

/-- An opcode's operand template (30 R403): what follows the opcode byte. -/
inductive Template where
  | plain (t : Tail)
  | ptr (f : Word → Word → Instr)
  | modrm8 (f : BitVec 3 → RM8 → Tail)
  | modrm16 (f : BitVec 3 → RM16 → Tail)

/-- Reads the rest of an instruction (30 R424, R428: low byte first). -/
def Tail.read : Tail → List Byte → Except DecodeError (Instr × List Byte)
  | .done i, bs => .ok (i, bs)
  | .ib f, b :: bs => .ok (f b, bs)
  | .iw f, lo :: hi :: bs => .ok (f (hi ++ lo), bs)
  | .ib _, [] => .error .truncated
  | .iw _, [] => .error .truncated
  | .iw _, [_] => .error .truncated

/-- Reads a memory operand's displacement (30 R421, mod ≠ 11). -/
def decodeMem (m : BitVec 2) (rm : BitVec 3) (bs : List Byte) : Except DecodeError (Mem × List Byte) :=
  if m = 0 then
    if rm = 6 then
      match bs with
      | lo :: hi :: rest => .ok (.direct (hi ++ lo), rest)
      | _ => .error .truncated
    else .ok (.base (baseOf rm), bs)
  else if m = 1 then
    match bs with
    | d :: rest => .ok (.baseD8 (baseOf rm) d, rest)
    | _ => .error .truncated
  else
    match bs with
    | lo :: hi :: rest => .ok (.baseD16 (baseOf rm) (hi ++ lo), rest)
    | _ => .error .truncated

/-- Reads the byte r/m operand that a ModR/M byte selects (30 R420). -/
def decodeRM8 (b : Byte) (bs : List Byte) : Except DecodeError (RM8 × List Byte) :=
  if modOf b = 3 then .ok (.reg (reg8Of (rmOf b)), bs)
  else (decodeMem (modOf b) (rmOf b) bs).map fun p => (.mem p.1, p.2)

/-- Reads the word r/m operand that a ModR/M byte selects (30 R420). -/
def decodeRM16 (b : Byte) (bs : List Byte) : Except DecodeError (RM16 × List Byte) :=
  if modOf b = 3 then .ok (.reg (reg16Of (rmOf b)), bs)
  else (decodeMem (modOf b) (rmOf b) bs).map fun p => (.mem p.1, p.2)

/-- Reads what an opcode's template takes (30 R403, R428: ModR/M, displacement, immediate or pointer). -/
def Template.read : Template → List Byte → Except DecodeError (Instr × List Byte)
  | .plain t, bs => t.read bs
  | .ptr f, o0 :: o1 :: s0 :: s1 :: bs => .ok (f (o1 ++ o0) (s1 ++ s0), bs)
  | .ptr _, _ => .error .truncated
  | .modrm8 f, b :: bs =>
    match decodeRM8 b bs with
    | .ok (e, rest) => (f (regOf b) e).read rest
    | .error x => .error x
  | .modrm8 _, [] => .error .truncated
  | .modrm16 f, b :: bs =>
    match decodeRM16 b bs with
    | .ok (e, rest) => (f (regOf b) e).read rest
    | .error x => .error x
  | .modrm16 _, [] => .error .truncated

/-! The group tables (30 R431 to R437). -/

/-- Group 1, 80 (30 R431). -/
def group80 (reg : BitVec 3) (e : RM8) : Tail :=
  match reg.toNat with
  | 0 => .ib (.addEbIb e)
  | 1 => .ib (.orEbIb e)
  | 2 => .ib (.adcEbIb e)
  | 3 => .ib (.sbbEbIb e)
  | 4 => .ib (.andEbIb e)
  | 5 => .ib (.subEbIb e)
  | 6 => .ib (.xorEbIb e)
  | _ => .ib (.cmpEbIb e)

/-- Group 1, 81 (30 R431). -/
def group81 (reg : BitVec 3) (e : RM16) : Tail :=
  match reg.toNat with
  | 0 => .iw (.addEvIw e)
  | 1 => .iw (.orEvIw e)
  | 2 => .iw (.adcEvIw e)
  | 3 => .iw (.sbbEvIw e)
  | 4 => .iw (.andEvIw e)
  | 5 => .iw (.subEvIw e)
  | 6 => .iw (.xorEvIw e)
  | _ => .iw (.cmpEvIw e)

/-- Group 1, 82: the aliases of 80 (30 R431, R455). -/
def group82 (reg : BitVec 3) (e : RM8) : Tail :=
  match reg.toNat with
  | 0 => .ib (.addEbIbAlias e)
  | 1 => .ib (.orEbIbAlias e)
  | 2 => .ib (.adcEbIbAlias e)
  | 3 => .ib (.sbbEbIbAlias e)
  | 4 => .ib (.andEbIbAlias e)
  | 5 => .ib (.subEbIbAlias e)
  | 6 => .ib (.xorEbIbAlias e)
  | _ => .ib (.cmpEbIbAlias e)

/-- Group 1, 83 (30 R431). -/
def group83 (reg : BitVec 3) (e : RM16) : Tail :=
  match reg.toNat with
  | 0 => .ib (.addEvIbSx e)
  | 1 => .ib (.orEvIbSx e)
  | 2 => .ib (.adcEvIbSx e)
  | 3 => .ib (.sbbEvIbSx e)
  | 4 => .ib (.andEvIbSx e)
  | 5 => .ib (.subEvIbSx e)
  | 6 => .ib (.xorEvIbSx e)
  | _ => .ib (.cmpEvIbSx e)

/-- 8E (30 R437). -/
def group8E (reg : BitVec 3) (e : RM16) : Tail :=
  match reg.toNat with
  | 0 => .done (.movEsEw e)
  | 1 => .done (.movCsEwRefused1 e)
  | 2 => .done (.movSsEw e)
  | 3 => .done (.movDsEw e)
  | 4 => .done (.movEsEwAlias e)
  | 5 => .done (.movCsEwRefused5 e)
  | 6 => .done (.movSsEwAlias e)
  | _ => .done (.movDsEwAlias e)

/-- 8F (30 R436). -/
def group8F (reg : BitVec 3) (e : RM16) : Tail :=
  match reg.toNat with
  | 0 => .done (.popEv e)
  | _ => .done (.pop8FRefused reg e)

/-- C6 (30 R436). -/
def groupC6 (reg : BitVec 3) (e : RM8) : Tail :=
  match reg.toNat with
  | 0 => .ib (.movEbIb e)
  | _ => .ib (.movC6Refused reg e)

/-- C7 (30 R436). -/
def groupC7 (reg : BitVec 3) (e : RM16) : Tail :=
  match reg.toNat with
  | 0 => .iw (.movEvIw e)
  | _ => .iw (.movC7Refused reg e)

/-- Group 2, D0 (30 R432). -/
def groupD0 (reg : BitVec 3) (e : RM8) : Tail :=
  match reg.toNat with
  | 0 => .done (.rolEb1 e)
  | 1 => .done (.rorEb1 e)
  | 2 => .done (.rclEb1 e)
  | 3 => .done (.rcrEb1 e)
  | 4 => .done (.shlEb1 e)
  | 5 => .done (.shrEb1 e)
  | 6 => .done (.setmoEb1 e)
  | _ => .done (.sarEb1 e)

/-- Group 2, D1 (30 R432). -/
def groupD1 (reg : BitVec 3) (e : RM16) : Tail :=
  match reg.toNat with
  | 0 => .done (.rolEv1 e)
  | 1 => .done (.rorEv1 e)
  | 2 => .done (.rclEv1 e)
  | 3 => .done (.rcrEv1 e)
  | 4 => .done (.shlEv1 e)
  | 5 => .done (.shrEv1 e)
  | 6 => .done (.setmoEv1 e)
  | _ => .done (.sarEv1 e)

/-- Group 2, D2 (30 R432). -/
def groupD2 (reg : BitVec 3) (e : RM8) : Tail :=
  match reg.toNat with
  | 0 => .done (.rolEbCl e)
  | 1 => .done (.rorEbCl e)
  | 2 => .done (.rclEbCl e)
  | 3 => .done (.rcrEbCl e)
  | 4 => .done (.shlEbCl e)
  | 5 => .done (.shrEbCl e)
  | 6 => .done (.setmocEbCl e)
  | _ => .done (.sarEbCl e)

/-- Group 2, D3 (30 R432). -/
def groupD3 (reg : BitVec 3) (e : RM16) : Tail :=
  match reg.toNat with
  | 0 => .done (.rolEvCl e)
  | 1 => .done (.rorEvCl e)
  | 2 => .done (.rclEvCl e)
  | 3 => .done (.rcrEvCl e)
  | 4 => .done (.shlEvCl e)
  | 5 => .done (.shrEvCl e)
  | 6 => .done (.setmocEvCl e)
  | _ => .done (.sarEvCl e)

/-- Group 3, F6 (30 R433). -/
def groupF6 (reg : BitVec 3) (e : RM8) : Tail :=
  match reg.toNat with
  | 0 => .ib (.testEbIb e)
  | 1 => .ib (.testEbIbAlias e)
  | 2 => .done (.notEb e)
  | 3 => .done (.negEb e)
  | 4 => .done (.mulEb e)
  | 5 => .done (.imulEb e)
  | 6 => .done (.divEb e)
  | _ => .done (.idivEb e)

/-- Group 3, F7 (30 R433). -/
def groupF7 (reg : BitVec 3) (e : RM16) : Tail :=
  match reg.toNat with
  | 0 => .iw (.testEvIw e)
  | 1 => .iw (.testEvIwAlias e)
  | 2 => .done (.notEv e)
  | 3 => .done (.negEv e)
  | 4 => .done (.mulEv e)
  | 5 => .done (.imulEv e)
  | 6 => .done (.divEv e)
  | _ => .done (.idivEv e)

/-- Group 4, FE (30 R434). -/
def groupFE (reg : BitVec 3) (e : RM8) : Tail :=
  match reg.toNat with
  | 0 => .done (.incEb e)
  | 1 => .done (.decEb e)
  | _ => .done (.feRefused reg e)

/-- Group 5, FF (30 R435). -/
def groupFF (reg : BitVec 3) (e : RM16) : Tail :=
  match reg.toNat with
  | 0 => .done (.incEv e)
  | 1 => .done (.decEv e)
  | 2 => .done (.callEv e)
  | 3 => match e with
    | .mem m => .done (.callMp m)
    | .reg r => .done (.callMpRegRefused r)
  | 4 => .done (.jmpEv e)
  | 5 => match e with
    | .mem m => .done (.jmpMp m)
    | .reg r => .done (.jmpMpRegRefused r)
  | 6 => .done (.pushEv e)
  | _ => .done (.ff7Refused e)

/-- 8C: reg 0 to 3 select a segment register, 4 to 7 are aliases of reg & 3 (30 R437). -/
def row8C (reg : BitVec 3) (e : RM16) : Tail :=
  if reg.getLsbD 2 then .done (.movEwSwAlias e (sregOf (reg.setWidth 2)))
  else .done (.movEwSw e (sregOf (reg.setWidth 2)))

/-- LEA: mod = 11 is refused (30 R456). -/
def row8D (reg : BitVec 3) (e : RM16) : Tail :=
  match e with
  | .mem m => .done (.leaGvM (reg16Of reg) m)
  | .reg r => .done (.leaGvRegRefused (reg16Of reg) r)

/-- LES: mod = 11 is refused (30 R456). -/
def rowC4 (reg : BitVec 3) (e : RM16) : Tail :=
  match e with
  | .mem m => .done (.lesGvMp (reg16Of reg) m)
  | .reg r => .done (.lesGvRegRefused (reg16Of reg) r)

/-- LDS: mod = 11 is refused (30 R456). -/
def rowC5 (reg : BitVec 3) (e : RM16) : Tail :=
  match e with
  | .mem m => .done (.ldsGvMp (reg16Of reg) m)
  | .reg r => .done (.ldsGvRegRefused (reg16Of reg) r)

/-- Opcodes 00 to 0F of 30 R430. -/
def opcodeRow0 : List Template := [
  .modrm8 fun g e => .done (.addEbGb e (reg8Of g)),
  .modrm16 fun g e => .done (.addEvGv e (reg16Of g)),
  .modrm8 fun g e => .done (.addGbEb (reg8Of g) e),
  .modrm16 fun g e => .done (.addGvEv (reg16Of g) e),
  .plain (.ib .addAlIb),
  .plain (.iw .addAxIw),
  .plain (.done .pushEs),
  .plain (.done .popEs),
  .modrm8 fun g e => .done (.orEbGb e (reg8Of g)),
  .modrm16 fun g e => .done (.orEvGv e (reg16Of g)),
  .modrm8 fun g e => .done (.orGbEb (reg8Of g) e),
  .modrm16 fun g e => .done (.orGvEv (reg16Of g) e),
  .plain (.ib .orAlIb),
  .plain (.iw .orAxIw),
  .plain (.done .pushCs),
  .plain (.done .popCsRefused)]

/-- Opcodes 10 to 1F of 30 R430. -/
def opcodeRow1 : List Template := [
  .modrm8 fun g e => .done (.adcEbGb e (reg8Of g)),
  .modrm16 fun g e => .done (.adcEvGv e (reg16Of g)),
  .modrm8 fun g e => .done (.adcGbEb (reg8Of g) e),
  .modrm16 fun g e => .done (.adcGvEv (reg16Of g) e),
  .plain (.ib .adcAlIb),
  .plain (.iw .adcAxIw),
  .plain (.done .pushSs),
  .plain (.done .popSs),
  .modrm8 fun g e => .done (.sbbEbGb e (reg8Of g)),
  .modrm16 fun g e => .done (.sbbEvGv e (reg16Of g)),
  .modrm8 fun g e => .done (.sbbGbEb (reg8Of g) e),
  .modrm16 fun g e => .done (.sbbGvEv (reg16Of g) e),
  .plain (.ib .sbbAlIb),
  .plain (.iw .sbbAxIw),
  .plain (.done .pushDs),
  .plain (.done .popDs)]

/-- Opcodes 20 to 2F of 30 R430. -/
def opcodeRow2 : List Template := [
  .modrm8 fun g e => .done (.andEbGb e (reg8Of g)),
  .modrm16 fun g e => .done (.andEvGv e (reg16Of g)),
  .modrm8 fun g e => .done (.andGbEb (reg8Of g) e),
  .modrm16 fun g e => .done (.andGvEv (reg16Of g) e),
  .plain (.ib .andAlIb),
  .plain (.iw .andAxIw),
  .plain (.done .prefixEs),
  .plain (.done .daa),
  .modrm8 fun g e => .done (.subEbGb e (reg8Of g)),
  .modrm16 fun g e => .done (.subEvGv e (reg16Of g)),
  .modrm8 fun g e => .done (.subGbEb (reg8Of g) e),
  .modrm16 fun g e => .done (.subGvEv (reg16Of g) e),
  .plain (.ib .subAlIb),
  .plain (.iw .subAxIw),
  .plain (.done .prefixCs),
  .plain (.done .das)]

/-- Opcodes 30 to 3F of 30 R430. -/
def opcodeRow3 : List Template := [
  .modrm8 fun g e => .done (.xorEbGb e (reg8Of g)),
  .modrm16 fun g e => .done (.xorEvGv e (reg16Of g)),
  .modrm8 fun g e => .done (.xorGbEb (reg8Of g) e),
  .modrm16 fun g e => .done (.xorGvEv (reg16Of g) e),
  .plain (.ib .xorAlIb),
  .plain (.iw .xorAxIw),
  .plain (.done .prefixSs),
  .plain (.done .aaa),
  .modrm8 fun g e => .done (.cmpEbGb e (reg8Of g)),
  .modrm16 fun g e => .done (.cmpEvGv e (reg16Of g)),
  .modrm8 fun g e => .done (.cmpGbEb (reg8Of g) e),
  .modrm16 fun g e => .done (.cmpGvEv (reg16Of g) e),
  .plain (.ib .cmpAlIb),
  .plain (.iw .cmpAxIw),
  .plain (.done .prefixDs),
  .plain (.done .aas)]

/-- Opcodes 40 to 4F of 30 R430. -/
def opcodeRow4 : List Template := [
  .plain (.done (.incR16 .ax)),
  .plain (.done (.incR16 .cx)),
  .plain (.done (.incR16 .dx)),
  .plain (.done (.incR16 .bx)),
  .plain (.done (.incR16 .sp)),
  .plain (.done (.incR16 .bp)),
  .plain (.done (.incR16 .si)),
  .plain (.done (.incR16 .di)),
  .plain (.done (.decR16 .ax)),
  .plain (.done (.decR16 .cx)),
  .plain (.done (.decR16 .dx)),
  .plain (.done (.decR16 .bx)),
  .plain (.done (.decR16 .sp)),
  .plain (.done (.decR16 .bp)),
  .plain (.done (.decR16 .si)),
  .plain (.done (.decR16 .di))]

/-- Opcodes 50 to 5F of 30 R430. -/
def opcodeRow5 : List Template := [
  .plain (.done (.pushR16 .ax)),
  .plain (.done (.pushR16 .cx)),
  .plain (.done (.pushR16 .dx)),
  .plain (.done (.pushR16 .bx)),
  .plain (.done (.pushR16 .sp)),
  .plain (.done (.pushR16 .bp)),
  .plain (.done (.pushR16 .si)),
  .plain (.done (.pushR16 .di)),
  .plain (.done (.popR16 .ax)),
  .plain (.done (.popR16 .cx)),
  .plain (.done (.popR16 .dx)),
  .plain (.done (.popR16 .bx)),
  .plain (.done (.popR16 .sp)),
  .plain (.done (.popR16 .bp)),
  .plain (.done (.popR16 .si)),
  .plain (.done (.popR16 .di))]

/-- Opcodes 60 to 6F of 30 R430. -/
def opcodeRow6 : List Template := [
  .plain (.ib (.jccAlias 0)),
  .plain (.ib (.jccAlias 1)),
  .plain (.ib (.jccAlias 2)),
  .plain (.ib (.jccAlias 3)),
  .plain (.ib (.jccAlias 4)),
  .plain (.ib (.jccAlias 5)),
  .plain (.ib (.jccAlias 6)),
  .plain (.ib (.jccAlias 7)),
  .plain (.ib (.jccAlias 8)),
  .plain (.ib (.jccAlias 9)),
  .plain (.ib (.jccAlias 10)),
  .plain (.ib (.jccAlias 11)),
  .plain (.ib (.jccAlias 12)),
  .plain (.ib (.jccAlias 13)),
  .plain (.ib (.jccAlias 14)),
  .plain (.ib (.jccAlias 15))]

/-- Opcodes 70 to 7F of 30 R430. -/
def opcodeRow7 : List Template := [
  .plain (.ib .jo),
  .plain (.ib .jno),
  .plain (.ib .jb),
  .plain (.ib .jnb),
  .plain (.ib .jz),
  .plain (.ib .jnz),
  .plain (.ib .jbe),
  .plain (.ib .ja),
  .plain (.ib .js),
  .plain (.ib .jns),
  .plain (.ib .jp),
  .plain (.ib .jnp),
  .plain (.ib .jl),
  .plain (.ib .jge),
  .plain (.ib .jle),
  .plain (.ib .jg)]

/-- Opcodes 80 to 8F of 30 R430. -/
def opcodeRow8 : List Template := [
  .modrm8 group80,
  .modrm16 group81,
  .modrm8 group82,
  .modrm16 group83,
  .modrm8 fun g e => .done (.testEbGb e (reg8Of g)),
  .modrm16 fun g e => .done (.testEvGv e (reg16Of g)),
  .modrm8 fun g e => .done (.xchgEbGb e (reg8Of g)),
  .modrm16 fun g e => .done (.xchgEvGv e (reg16Of g)),
  .modrm8 fun g e => .done (.movEbGb e (reg8Of g)),
  .modrm16 fun g e => .done (.movEvGv e (reg16Of g)),
  .modrm8 fun g e => .done (.movGbEb (reg8Of g) e),
  .modrm16 fun g e => .done (.movGvEv (reg16Of g) e),
  .modrm16 row8C,
  .modrm16 row8D,
  .modrm16 group8E,
  .modrm16 group8F]

/-- Opcodes 90 to 9F of 30 R430. -/
def opcodeRow9 : List Template := [
  .plain (.done .nop),
  .plain (.done (.xchgAxR16 .cx)),
  .plain (.done (.xchgAxR16 .dx)),
  .plain (.done (.xchgAxR16 .bx)),
  .plain (.done (.xchgAxR16 .sp)),
  .plain (.done (.xchgAxR16 .bp)),
  .plain (.done (.xchgAxR16 .si)),
  .plain (.done (.xchgAxR16 .di)),
  .plain (.done .cbw),
  .plain (.done .cwd),
  .ptr .callPtr,
  .plain (.done .wait),
  .plain (.done .pushf),
  .plain (.done .popf),
  .plain (.done .sahf),
  .plain (.done .lahf)]

/-- Opcodes A0 to AF of 30 R430. -/
def opcodeRowA : List Template := [
  .plain (.iw .movAlMoffs),
  .plain (.iw .movAxMoffs),
  .plain (.iw .movMoffsAl),
  .plain (.iw .movMoffsAx),
  .plain (.done .movsb),
  .plain (.done .movsw),
  .plain (.done .cmpsb),
  .plain (.done .cmpsw),
  .plain (.ib .testAlIb),
  .plain (.iw .testAxIw),
  .plain (.done .stosb),
  .plain (.done .stosw),
  .plain (.done .lodsb),
  .plain (.done .lodsw),
  .plain (.done .scasb),
  .plain (.done .scasw)]

/-- Opcodes B0 to BF of 30 R430. -/
def opcodeRowB : List Template := [
  .plain (.ib (.movR8Ib .al)),
  .plain (.ib (.movR8Ib .cl)),
  .plain (.ib (.movR8Ib .dl)),
  .plain (.ib (.movR8Ib .bl)),
  .plain (.ib (.movR8Ib .ah)),
  .plain (.ib (.movR8Ib .ch)),
  .plain (.ib (.movR8Ib .dh)),
  .plain (.ib (.movR8Ib .bh)),
  .plain (.iw (.movR16Iw .ax)),
  .plain (.iw (.movR16Iw .cx)),
  .plain (.iw (.movR16Iw .dx)),
  .plain (.iw (.movR16Iw .bx)),
  .plain (.iw (.movR16Iw .sp)),
  .plain (.iw (.movR16Iw .bp)),
  .plain (.iw (.movR16Iw .si)),
  .plain (.iw (.movR16Iw .di))]

/-- Opcodes C0 to CF of 30 R430. -/
def opcodeRowC : List Template := [
  .plain (.iw .retIwAlias),
  .plain (.done .retAlias),
  .plain (.iw .retIw),
  .plain (.done .ret),
  .modrm16 rowC4,
  .modrm16 rowC5,
  .modrm8 groupC6,
  .modrm16 groupC7,
  .plain (.iw .retfIwAlias),
  .plain (.done .retfAlias),
  .plain (.iw .retfIw),
  .plain (.done .retf),
  .plain (.done .int3),
  .plain (.ib .intIb),
  .plain (.done .into),
  .plain (.done .iret)]

/-- Opcodes D0 to DF of 30 R430. -/
def opcodeRowD : List Template := [
  .modrm8 groupD0,
  .modrm16 groupD1,
  .modrm8 groupD2,
  .modrm16 groupD3,
  .plain (.ib .aamIb),
  .plain (.ib .aadIb),
  .plain (.done .salc),
  .plain (.done .xlat),
  .modrm16 fun g e => .done (.esc (0#3 ++ g) e),
  .modrm16 fun g e => .done (.esc (1#3 ++ g) e),
  .modrm16 fun g e => .done (.esc (2#3 ++ g) e),
  .modrm16 fun g e => .done (.esc (3#3 ++ g) e),
  .modrm16 fun g e => .done (.esc (4#3 ++ g) e),
  .modrm16 fun g e => .done (.esc (5#3 ++ g) e),
  .modrm16 fun g e => .done (.esc (6#3 ++ g) e),
  .modrm16 fun g e => .done (.esc (7#3 ++ g) e)]

/-- Opcodes E0 to EF of 30 R430. -/
def opcodeRowE : List Template := [
  .plain (.ib .loopnz),
  .plain (.ib .loopz),
  .plain (.ib .loop),
  .plain (.ib .jcxz),
  .plain (.ib .inAlIb),
  .plain (.ib .inAxIb),
  .plain (.ib .outIbAl),
  .plain (.ib .outIbAx),
  .plain (.iw .callRel16),
  .plain (.iw .jmpRel16),
  .ptr .jmpPtr,
  .plain (.ib .jmpRel8),
  .plain (.done .inAlDx),
  .plain (.done .inAxDx),
  .plain (.done .outDxAl),
  .plain (.done .outDxAx)]

/-- Opcodes F0 to FF of 30 R430. -/
def opcodeRowF : List Template := [
  .plain (.done .prefixLock),
  .plain (.done .prefixLockAlias),
  .plain (.done .prefixRepne),
  .plain (.done .prefixRep),
  .plain (.done .hlt),
  .plain (.done .cmc),
  .modrm8 groupF6,
  .modrm16 groupF7,
  .plain (.done .clc),
  .plain (.done .stc),
  .plain (.done .cli),
  .plain (.done .sti),
  .plain (.done .cld),
  .plain (.done .std),
  .modrm8 groupFE,
  .modrm16 groupFF]

/-- The one-byte opcode map (30 R430), sixteen rows of sixteen. -/
def opcodeMap : List (List Template) := [
  opcodeRow0, opcodeRow1, opcodeRow2, opcodeRow3, opcodeRow4, opcodeRow5, opcodeRow6, opcodeRow7,
  opcodeRow8, opcodeRow9, opcodeRowA, opcodeRowB, opcodeRowC, opcodeRowD, opcodeRowE, opcodeRowF]

/-- The template of an opcode byte; the defaults are never reached, the map having an entry for every byte. -/
def templateOf (op : Byte) : Template :=
  (opcodeMap.getD (op.toNat / 16) []).getD (op.toNat % 16) (.plain (.done .nop))

/-- Reads one row of the opcode table from the front of a byte list (30 R428), total: the instruction and the bytes after
it, or the error that the bytes end inside it. -/
def decode : List Byte → Except DecodeError (Instr × List Byte)
  | [] => .error .truncated
  | op :: bs => (templateOf op).read bs

/-! The length rule (30 R440), stated apart from the decoder. -/

/-- The opcode has a ModR/M byte (30 R430, R440). -/
def hasModrm (op : Byte) : Bool :=
  (op < 0x40 && op.getLsbD 2 == false) || (0x80 ≤ op && op ≤ 0x8F) || (0xC4 ≤ op && op ≤ 0xC7) ||
    (0xD0 ≤ op && op ≤ 0xD3) || (0xD8 ≤ op && op ≤ 0xDF) || op == 0xF6 || op == 0xF7 || op == 0xFE || op == 0xFF

/-- `disp_len(mod, rm)` (30 R440). -/
def dispLen (m : BitVec 2) (rm : BitVec 3) : Nat :=
  if (m = 0 ∧ rm = 6) ∨ m = 2 then 2 else if m = 1 then 1 else 0

/-- `imm_len(opcode, reg)` (30 R440). -/
def immLen (op : Byte) (reg : BitVec 3) : Nat :=
  if (op < 0x40 && op.setWidth 3 == (4 : BitVec 3)) || (0x60 ≤ op && op ≤ 0x7F) || op == 0x80 || op == 0x82 ||
      op == 0x83 || op == 0xA8 || (0xB0 ≤ op && op ≤ 0xB7) || op == 0xC6 || op == 0xCD || op == 0xD4 || op == 0xD5 ||
      (0xE0 ≤ op && op ≤ 0xE7) || op == 0xEB || (op == 0xF6 && (reg == 0 || reg == 1)) then 1
  else if (op < 0x40 && op.setWidth 3 == (5 : BitVec 3)) || op == 0x81 || (0xA0 ≤ op && op ≤ 0xA3) || op == 0xA9 ||
      (0xB8 ≤ op && op ≤ 0xBF) || op == 0xC0 || op == 0xC2 || op == 0xC8 || op == 0xCA || op == 0xC7 || op == 0xE8 ||
      op == 0xE9 || (op == 0xF7 && (reg == 0 || reg == 1)) then 2
  else if op == 0x9A || op == 0xEA then 4
  else 0

/-- The length in bytes of an instruction without its prefixes, from its opcode and the byte after it (30 R440). -/
def instrLen (op b1 : Byte) : Nat :=
  1 + (if hasModrm op then 1 + dispLen (modOf b1) (rmOf b1) else 0) + immLen op (regOf b1)

/-! The encoder. -/

/-- ModR/M byte and displacement of a memory operand (30 R421). -/
def memBytes (reg : BitVec 3) : Mem → List Byte
  | .base b => [modrmByte 0 reg b.num]
  | .baseD8 b d => [modrmByte 1 reg b.num, d]
  | .baseD16 b d => modrmByte 2 reg b.num :: wordBytes d
  | .direct d => modrmByte 0 reg 6 :: wordBytes d

/-- ModR/M byte and displacement of a byte r/m operand (30 R420). -/
def rm8Bytes (reg : BitVec 3) : RM8 → List Byte
  | .reg r => [modrmByte 3 reg r.num]
  | .mem m => memBytes reg m

/-- ModR/M byte and displacement of a word r/m operand (30 R420). -/
def rm16Bytes (reg : BitVec 3) : RM16 → List Byte
  | .reg r => [modrmByte 3 reg r.num]
  | .mem m => memBytes reg m

/-- The bytes of an instruction (30 R430 to R438); meant for well-formed instructions. -/
def encode : Instr → List Byte
  | .addEbGb e g => 0x00 :: rm8Bytes g.num e
  | .addEvGv e g => 0x01 :: rm16Bytes g.num e
  | .addGbEb g e => 0x02 :: rm8Bytes g.num e
  | .addGvEv g e => 0x03 :: rm16Bytes g.num e
  | .addAlIb i => [0x04, i]
  | .addAxIw i => 0x05 :: wordBytes i
  | .orEbGb e g => 0x08 :: rm8Bytes g.num e
  | .orEvGv e g => 0x09 :: rm16Bytes g.num e
  | .orGbEb g e => 0x0A :: rm8Bytes g.num e
  | .orGvEv g e => 0x0B :: rm16Bytes g.num e
  | .orAlIb i => [0x0C, i]
  | .orAxIw i => 0x0D :: wordBytes i
  | .adcEbGb e g => 0x10 :: rm8Bytes g.num e
  | .adcEvGv e g => 0x11 :: rm16Bytes g.num e
  | .adcGbEb g e => 0x12 :: rm8Bytes g.num e
  | .adcGvEv g e => 0x13 :: rm16Bytes g.num e
  | .adcAlIb i => [0x14, i]
  | .adcAxIw i => 0x15 :: wordBytes i
  | .sbbEbGb e g => 0x18 :: rm8Bytes g.num e
  | .sbbEvGv e g => 0x19 :: rm16Bytes g.num e
  | .sbbGbEb g e => 0x1A :: rm8Bytes g.num e
  | .sbbGvEv g e => 0x1B :: rm16Bytes g.num e
  | .sbbAlIb i => [0x1C, i]
  | .sbbAxIw i => 0x1D :: wordBytes i
  | .andEbGb e g => 0x20 :: rm8Bytes g.num e
  | .andEvGv e g => 0x21 :: rm16Bytes g.num e
  | .andGbEb g e => 0x22 :: rm8Bytes g.num e
  | .andGvEv g e => 0x23 :: rm16Bytes g.num e
  | .andAlIb i => [0x24, i]
  | .andAxIw i => 0x25 :: wordBytes i
  | .subEbGb e g => 0x28 :: rm8Bytes g.num e
  | .subEvGv e g => 0x29 :: rm16Bytes g.num e
  | .subGbEb g e => 0x2A :: rm8Bytes g.num e
  | .subGvEv g e => 0x2B :: rm16Bytes g.num e
  | .subAlIb i => [0x2C, i]
  | .subAxIw i => 0x2D :: wordBytes i
  | .xorEbGb e g => 0x30 :: rm8Bytes g.num e
  | .xorEvGv e g => 0x31 :: rm16Bytes g.num e
  | .xorGbEb g e => 0x32 :: rm8Bytes g.num e
  | .xorGvEv g e => 0x33 :: rm16Bytes g.num e
  | .xorAlIb i => [0x34, i]
  | .xorAxIw i => 0x35 :: wordBytes i
  | .cmpEbGb e g => 0x38 :: rm8Bytes g.num e
  | .cmpEvGv e g => 0x39 :: rm16Bytes g.num e
  | .cmpGbEb g e => 0x3A :: rm8Bytes g.num e
  | .cmpGvEv g e => 0x3B :: rm16Bytes g.num e
  | .cmpAlIb i => [0x3C, i]
  | .cmpAxIw i => 0x3D :: wordBytes i
  | .incR16 r => [0x40 + r.num.setWidth 8]
  | .decR16 r => [0x48 + r.num.setWidth 8]
  | .pushR16 r => [0x50 + r.num.setWidth 8]
  | .popR16 r => [0x58 + r.num.setWidth 8]
  | .jo rel => [0x70, rel]
  | .jno rel => [0x71, rel]
  | .jb rel => [0x72, rel]
  | .jnb rel => [0x73, rel]
  | .jz rel => [0x74, rel]
  | .jnz rel => [0x75, rel]
  | .jbe rel => [0x76, rel]
  | .ja rel => [0x77, rel]
  | .js rel => [0x78, rel]
  | .jns rel => [0x79, rel]
  | .jp rel => [0x7A, rel]
  | .jnp rel => [0x7B, rel]
  | .jl rel => [0x7C, rel]
  | .jge rel => [0x7D, rel]
  | .jle rel => [0x7E, rel]
  | .jg rel => [0x7F, rel]
  | .jccAlias cc rel => [0x60 + cc.setWidth 8, rel]
  | .addEbIb e i => 0x80 :: rm8Bytes 0 e ++ [i]
  | .orEbIb e i => 0x80 :: rm8Bytes 1 e ++ [i]
  | .adcEbIb e i => 0x80 :: rm8Bytes 2 e ++ [i]
  | .sbbEbIb e i => 0x80 :: rm8Bytes 3 e ++ [i]
  | .andEbIb e i => 0x80 :: rm8Bytes 4 e ++ [i]
  | .subEbIb e i => 0x80 :: rm8Bytes 5 e ++ [i]
  | .xorEbIb e i => 0x80 :: rm8Bytes 6 e ++ [i]
  | .cmpEbIb e i => 0x80 :: rm8Bytes 7 e ++ [i]
  | .addEvIw e i => 0x81 :: rm16Bytes 0 e ++ wordBytes i
  | .orEvIw e i => 0x81 :: rm16Bytes 1 e ++ wordBytes i
  | .adcEvIw e i => 0x81 :: rm16Bytes 2 e ++ wordBytes i
  | .sbbEvIw e i => 0x81 :: rm16Bytes 3 e ++ wordBytes i
  | .andEvIw e i => 0x81 :: rm16Bytes 4 e ++ wordBytes i
  | .subEvIw e i => 0x81 :: rm16Bytes 5 e ++ wordBytes i
  | .xorEvIw e i => 0x81 :: rm16Bytes 6 e ++ wordBytes i
  | .cmpEvIw e i => 0x81 :: rm16Bytes 7 e ++ wordBytes i
  | .addEbIbAlias e i => 0x82 :: rm8Bytes 0 e ++ [i]
  | .orEbIbAlias e i => 0x82 :: rm8Bytes 1 e ++ [i]
  | .adcEbIbAlias e i => 0x82 :: rm8Bytes 2 e ++ [i]
  | .sbbEbIbAlias e i => 0x82 :: rm8Bytes 3 e ++ [i]
  | .andEbIbAlias e i => 0x82 :: rm8Bytes 4 e ++ [i]
  | .subEbIbAlias e i => 0x82 :: rm8Bytes 5 e ++ [i]
  | .xorEbIbAlias e i => 0x82 :: rm8Bytes 6 e ++ [i]
  | .cmpEbIbAlias e i => 0x82 :: rm8Bytes 7 e ++ [i]
  | .addEvIbSx e i => 0x83 :: rm16Bytes 0 e ++ [i]
  | .orEvIbSx e i => 0x83 :: rm16Bytes 1 e ++ [i]
  | .adcEvIbSx e i => 0x83 :: rm16Bytes 2 e ++ [i]
  | .sbbEvIbSx e i => 0x83 :: rm16Bytes 3 e ++ [i]
  | .andEvIbSx e i => 0x83 :: rm16Bytes 4 e ++ [i]
  | .subEvIbSx e i => 0x83 :: rm16Bytes 5 e ++ [i]
  | .xorEvIbSx e i => 0x83 :: rm16Bytes 6 e ++ [i]
  | .cmpEvIbSx e i => 0x83 :: rm16Bytes 7 e ++ [i]
  | .testEbGb e g => 0x84 :: rm8Bytes g.num e
  | .testEvGv e g => 0x85 :: rm16Bytes g.num e
  | .xchgEbGb e g => 0x86 :: rm8Bytes g.num e
  | .xchgEvGv e g => 0x87 :: rm16Bytes g.num e
  | .movEbGb e g => 0x88 :: rm8Bytes g.num e
  | .movEvGv e g => 0x89 :: rm16Bytes g.num e
  | .movGbEb g e => 0x8A :: rm8Bytes g.num e
  | .movGvEv g e => 0x8B :: rm16Bytes g.num e
  | .movEwSw e sr => 0x8C :: rm16Bytes (0b0#1 ++ sr.num) e
  | .movEwSwAlias e sr => 0x8C :: rm16Bytes (0b1#1 ++ sr.num) e
  | .leaGvM g m => 0x8D :: rm16Bytes g.num (.mem m)
  | .leaGvRegRefused g r => 0x8D :: rm16Bytes g.num (.reg r)
  | .movEsEw e => 0x8E :: rm16Bytes 0 e
  | .movCsEwRefused1 e => 0x8E :: rm16Bytes 1 e
  | .movSsEw e => 0x8E :: rm16Bytes 2 e
  | .movDsEw e => 0x8E :: rm16Bytes 3 e
  | .movEsEwAlias e => 0x8E :: rm16Bytes 4 e
  | .movCsEwRefused5 e => 0x8E :: rm16Bytes 5 e
  | .movSsEwAlias e => 0x8E :: rm16Bytes 6 e
  | .movDsEwAlias e => 0x8E :: rm16Bytes 7 e
  | .popEv e => 0x8F :: rm16Bytes 0 e
  | .pop8FRefused reg e => 0x8F :: rm16Bytes reg e
  | .xchgAxR16 r => [0x90 + r.num.setWidth 8]
  | .callPtr off seg => 0x9A :: wordBytes off ++ wordBytes seg
  | .movAlMoffs off => 0xA0 :: wordBytes off
  | .movAxMoffs off => 0xA1 :: wordBytes off
  | .movMoffsAl off => 0xA2 :: wordBytes off
  | .movMoffsAx off => 0xA3 :: wordBytes off
  | .testAlIb i => [0xA8, i]
  | .testAxIw i => 0xA9 :: wordBytes i
  | .movR8Ib r i => [0xB0 + r.num.setWidth 8, i]
  | .movR16Iw r i => (0xB8 + r.num.setWidth 8) :: wordBytes i
  | .retIwAlias i => 0xC0 :: wordBytes i
  | .retIw i => 0xC2 :: wordBytes i
  | .retfIwAlias i => 0xC8 :: wordBytes i
  | .retfIw i => 0xCA :: wordBytes i
  | .intIb i => [0xCD, i]
  | .lesGvMp g m => 0xC4 :: rm16Bytes g.num (.mem m)
  | .lesGvRegRefused g r => 0xC4 :: rm16Bytes g.num (.reg r)
  | .ldsGvMp g m => 0xC5 :: rm16Bytes g.num (.mem m)
  | .ldsGvRegRefused g r => 0xC5 :: rm16Bytes g.num (.reg r)
  | .movEbIb e i => 0xC6 :: rm8Bytes 0 e ++ [i]
  | .movC6Refused reg e i => 0xC6 :: rm8Bytes reg e ++ [i]
  | .movEvIw e i => 0xC7 :: rm16Bytes 0 e ++ wordBytes i
  | .movC7Refused reg e i => 0xC7 :: rm16Bytes reg e ++ wordBytes i
  | .rolEb1 e => 0xD0 :: rm8Bytes 0 e
  | .rorEb1 e => 0xD0 :: rm8Bytes 1 e
  | .rclEb1 e => 0xD0 :: rm8Bytes 2 e
  | .rcrEb1 e => 0xD0 :: rm8Bytes 3 e
  | .shlEb1 e => 0xD0 :: rm8Bytes 4 e
  | .shrEb1 e => 0xD0 :: rm8Bytes 5 e
  | .setmoEb1 e => 0xD0 :: rm8Bytes 6 e
  | .sarEb1 e => 0xD0 :: rm8Bytes 7 e
  | .rolEv1 e => 0xD1 :: rm16Bytes 0 e
  | .rorEv1 e => 0xD1 :: rm16Bytes 1 e
  | .rclEv1 e => 0xD1 :: rm16Bytes 2 e
  | .rcrEv1 e => 0xD1 :: rm16Bytes 3 e
  | .shlEv1 e => 0xD1 :: rm16Bytes 4 e
  | .shrEv1 e => 0xD1 :: rm16Bytes 5 e
  | .setmoEv1 e => 0xD1 :: rm16Bytes 6 e
  | .sarEv1 e => 0xD1 :: rm16Bytes 7 e
  | .rolEbCl e => 0xD2 :: rm8Bytes 0 e
  | .rorEbCl e => 0xD2 :: rm8Bytes 1 e
  | .rclEbCl e => 0xD2 :: rm8Bytes 2 e
  | .rcrEbCl e => 0xD2 :: rm8Bytes 3 e
  | .shlEbCl e => 0xD2 :: rm8Bytes 4 e
  | .shrEbCl e => 0xD2 :: rm8Bytes 5 e
  | .setmocEbCl e => 0xD2 :: rm8Bytes 6 e
  | .sarEbCl e => 0xD2 :: rm8Bytes 7 e
  | .rolEvCl e => 0xD3 :: rm16Bytes 0 e
  | .rorEvCl e => 0xD3 :: rm16Bytes 1 e
  | .rclEvCl e => 0xD3 :: rm16Bytes 2 e
  | .rcrEvCl e => 0xD3 :: rm16Bytes 3 e
  | .shlEvCl e => 0xD3 :: rm16Bytes 4 e
  | .shrEvCl e => 0xD3 :: rm16Bytes 5 e
  | .setmocEvCl e => 0xD3 :: rm16Bytes 6 e
  | .sarEvCl e => 0xD3 :: rm16Bytes 7 e
  | .aamIb i => [0xD4, i]
  | .aadIb i => [0xD5, i]
  | .esc code e => (0xD8 + (code.extractLsb' 3 3).setWidth 8) :: rm16Bytes (code.extractLsb' 0 3) e
  | .loopnz rel => [0xE0, rel]
  | .loopz rel => [0xE1, rel]
  | .loop rel => [0xE2, rel]
  | .jcxz rel => [0xE3, rel]
  | .inAlIb i => [0xE4, i]
  | .inAxIb i => [0xE5, i]
  | .outIbAl i => [0xE6, i]
  | .outIbAx i => [0xE7, i]
  | .callRel16 rel => 0xE8 :: wordBytes rel
  | .jmpRel16 rel => 0xE9 :: wordBytes rel
  | .jmpPtr off seg => 0xEA :: wordBytes off ++ wordBytes seg
  | .jmpRel8 rel => [0xEB, rel]
  | .testEbIb e i => 0xF6 :: rm8Bytes 0 e ++ [i]
  | .testEbIbAlias e i => 0xF6 :: rm8Bytes 1 e ++ [i]
  | .notEb e => 0xF6 :: rm8Bytes 2 e
  | .negEb e => 0xF6 :: rm8Bytes 3 e
  | .mulEb e => 0xF6 :: rm8Bytes 4 e
  | .imulEb e => 0xF6 :: rm8Bytes 5 e
  | .divEb e => 0xF6 :: rm8Bytes 6 e
  | .idivEb e => 0xF6 :: rm8Bytes 7 e
  | .testEvIw e i => 0xF7 :: rm16Bytes 0 e ++ wordBytes i
  | .testEvIwAlias e i => 0xF7 :: rm16Bytes 1 e ++ wordBytes i
  | .notEv e => 0xF7 :: rm16Bytes 2 e
  | .negEv e => 0xF7 :: rm16Bytes 3 e
  | .mulEv e => 0xF7 :: rm16Bytes 4 e
  | .imulEv e => 0xF7 :: rm16Bytes 5 e
  | .divEv e => 0xF7 :: rm16Bytes 6 e
  | .idivEv e => 0xF7 :: rm16Bytes 7 e
  | .incEb e => 0xFE :: rm8Bytes 0 e
  | .decEb e => 0xFE :: rm8Bytes 1 e
  | .feRefused reg e => 0xFE :: rm8Bytes reg e
  | .incEv e => 0xFF :: rm16Bytes 0 e
  | .decEv e => 0xFF :: rm16Bytes 1 e
  | .callEv e => 0xFF :: rm16Bytes 2 e
  | .callMp m => 0xFF :: rm16Bytes 3 (.mem m)
  | .jmpEv e => 0xFF :: rm16Bytes 4 e
  | .jmpMp m => 0xFF :: rm16Bytes 5 (.mem m)
  | .pushEv e => 0xFF :: rm16Bytes 6 e
  | .callMpRegRefused r => 0xFF :: rm16Bytes 3 (.reg r)
  | .jmpMpRegRefused r => 0xFF :: rm16Bytes 5 (.reg r)
  | .ff7Refused e => 0xFF :: rm16Bytes 7 e
  | .pushEs => [0x06]
  | .popEs => [0x07]
  | .pushCs => [0x0E]
  | .popCsRefused => [0x0F]
  | .pushSs => [0x16]
  | .popSs => [0x17]
  | .pushDs => [0x1E]
  | .popDs => [0x1F]
  | .prefixEs => [0x26]
  | .prefixCs => [0x2E]
  | .prefixSs => [0x36]
  | .prefixDs => [0x3E]
  | .daa => [0x27]
  | .das => [0x2F]
  | .aaa => [0x37]
  | .aas => [0x3F]
  | .nop => [0x90]
  | .cbw => [0x98]
  | .cwd => [0x99]
  | .wait => [0x9B]
  | .pushf => [0x9C]
  | .popf => [0x9D]
  | .sahf => [0x9E]
  | .lahf => [0x9F]
  | .movsb => [0xA4]
  | .movsw => [0xA5]
  | .cmpsb => [0xA6]
  | .cmpsw => [0xA7]
  | .stosb => [0xAA]
  | .stosw => [0xAB]
  | .lodsb => [0xAC]
  | .lodsw => [0xAD]
  | .scasb => [0xAE]
  | .scasw => [0xAF]
  | .retAlias => [0xC1]
  | .ret => [0xC3]
  | .retfAlias => [0xC9]
  | .retf => [0xCB]
  | .int3 => [0xCC]
  | .into => [0xCE]
  | .iret => [0xCF]
  | .salc => [0xD6]
  | .xlat => [0xD7]
  | .inAlDx => [0xEC]
  | .inAxDx => [0xED]
  | .outDxAl => [0xEE]
  | .outDxAx => [0xEF]
  | .prefixLock => [0xF0]
  | .prefixRepne => [0xF2]
  | .prefixRep => [0xF3]
  | .hlt => [0xF4]
  | .cmc => [0xF5]
  | .clc => [0xF8]
  | .stc => [0xF9]
  | .cli => [0xFA]
  | .sti => [0xFB]
  | .cld => [0xFC]
  | .std => [0xFD]
  | .prefixLockAlias => [0xF1]

/-! The host's view of the opcode table. -/

/-- The bytes of an nbits-wide table word: spec/opcode_table.json puts the opcode in the most significant byte (30 R439:
`opcode << 8 | b1`), so the first byte of the instruction is the most significant one. -/
def tableBytes : Nat → Nat → List Byte
  | 0, _ => []
  | n + 1, w => BitVec.ofNat 8 (w / 256 ^ n) :: tableBytes n w

/-- The longest instruction without prefixes has six bytes (30 R400). -/
def maxInstrBytes : Nat := 6

/-- How many bytes a table word has: those of nbits, or two where the word is the table's 16-bit value of a row of one byte
(30 R439). -/
def tableLength (nbits w : Nat) : Nat := if w < 256 ^ (nbits / 8) then nbits / 8 else 2

/-- A table word as the bytes of the instruction stream, zeros following. -/
def tableStream (nbits w : Nat) : List Byte := tableBytes (tableLength nbits w) w ++ List.replicate maxInstrBytes 0

/-- The instruction the decoder reads from a table word; operand bytes above the table's bits are zero. -/
def decodeTableWord (nbits w : Nat) : Option Instr :=
  match decode (tableStream nbits w) with
  | .ok (i, _) => some i
  | .error _ => none

end Sys2Proof
end

