-- ==== Sys2Proof/Machine/Bits.lean ====
section
/-! DEFINITION. Bit-field, byte-order and sign-extension helpers (00 R9, R10). -/

namespace Sys2Proof.Machine

/-- Bits 7:0 of a word. -/
def loByte (w : Word) : Byte := w.setWidth 8

/-- Bits 15:8 of a word. -/
def hiByte (w : Word) : Byte := w.extractLsb' 8 8

/-- The word `hi ++ lo` (00 R10, 20 R220). -/
def mkWord (hi lo : Byte) : Word := hi ++ lo

/-- `sext_16` of a byte (00 R10). -/
def sext16 (b : Byte) : Word := b.signExtend 16

/-- `zext_16` of a byte (00 R10). -/
def zext16 (b : Byte) : Word := b.setWidth 16

/-- `lin(seg, off) = (seg * 16 + off) mod 2^20` (20 R203). -/
def lin (seg off : Word) : LinAddr := BitVec.ofNat 20 (seg.toNat * 16 + off.toNat)

/-- How many of the low n bits of a value are 1. -/
def popCount (x : Byte) : Nat → Nat
  | 0 => 0
  | n + 1 => popCount x n + (if x.getLsbD n then 1 else 0)

/-- The number of 1 bits is even: the PF rule on bits 7:0 (41 R700). -/
def evenParity (x : Byte) : Bool := popCount x 8 % 2 == 0

/-- `b` as 0 or 1. -/
def bitNat (b : Bool) : Nat := if b then 1 else 0

/-- Bit i of a byte set to a value. -/
def setBit (x : Byte) (i : Nat) (b : Bool) : Byte :=
  if b then x ||| (1#8 <<< i) else x &&& ~~~(1#8 <<< i)

end Sys2Proof.Machine
end

