-- ==== Sys2Proof/Machine/Registers.lean ====
section
/-! DEFINITION. The one home of the registers and of FLAGS: reads, writes, and the FLAGS image (10 R100 to R121). Setters of
the state's components stand here too, so that every later write goes through a named one. -/

namespace Sys2Proof.Machine

/-! The register files. -/

/-- `R16[i]` (10 R101). -/
def RegFile.get {α : Type} (f : RegFile α) : Reg16 → α
  | .ax => f.ax | .cx => f.cx | .dx => f.dx | .bx => f.bx | .sp => f.sp | .bp => f.bp | .si => f.si | .di => f.di

/-- `R16[i] <- v` (00 R11). -/
def RegFile.set {α : Type} (f : RegFile α) (r : Reg16) (v : α) : RegFile α :=
  match r with
  | .ax => { f with ax := v }
  | .cx => { f with cx := v }
  | .dx => { f with dx := v }
  | .bx => { f with bx := v }
  | .sp => { f with sp := v }
  | .bp => { f with bp := v }
  | .si => { f with si := v }
  | .di => { f with di := v }

/-- `SR[i]` (10 R105). -/
def SegFile.get (f : SegFile) : Sreg → Word
  | .es => f.es | .cs => f.cs | .ss => f.ss | .ds => f.ds

/-- `SR[i] <- v` (00 R11). -/
def SegFile.set (f : SegFile) (r : Sreg) (v : Word) : SegFile :=
  match r with
  | .es => { f with es := v }
  | .cs => { f with cs := v }
  | .ss => { f with ss := v }
  | .ds => { f with ds := v }

/-- The word register that a byte register is half of (10 R102). -/
def wholeOf : Reg8 → Reg16
  | .al => .ax | .cl => .cx | .dl => .dx | .bl => .bx | .ah => .ax | .ch => .cx | .dh => .dx | .bh => .bx

/-- The byte register is the high half, bits 15:8 (10 R102). -/
def isHighHalf : Reg8 → Bool
  | .al => false | .cl => false | .dl => false | .bl => false | .ah => true | .ch => true | .dh => true | .bh => true

/-- A half of a word (10 R103). -/
def halfOf (w : Word) (high : Bool) : Byte := if high then hiByte w else loByte w

/-- A word with one half replaced (10 R103). -/
def withHalf (w : Word) (high : Bool) (v : Byte) : Word :=
  if high then mkWord v (loByte w) else mkWord (hiByte w) v

/-! State components. -/

/-- The state with its CPU changed. -/
def State.mapCpu (f : Cpu → Cpu) (s : State) : State := { s with cpu := f s.cpu }

/-- The state with its BIU changed. -/
def State.mapBiu (f : Biu → Biu) (s : State) : State := { s with biu := f s.biu }

/-- The state with its bus changed. -/
def State.mapBus (f : Bus → Bus) (s : State) : State := { s with bus := f s.bus }

/-- The state with its devices changed. -/
def State.mapDev (f : Devices → Devices) (s : State) : State := { s with dev := f s.dev }

/-- The state with its environment inputs changed. -/
def State.mapEnv (f : Env → Env) (s : State) : State := { s with env := f s.env }

/-- A bus event appended to the history (20 R241). -/
def State.record (e : BusEvent) (s : State) : State := { s with history := e :: s.history }

/-! Free values (`draw()`, 00 R14; log 6). -/

/-- One more free value used. -/
def State.bumpDraws (s : State) : State := { s with draws := s.draws + 1 }

/-- A free bit. -/
def drawBit (s : State) : Bool × State := (Config.freeBit s.draws, s.bumpDraws)

/-- A free byte. -/
def drawByte (s : State) : Byte × State := (Config.freeByte s.draws, s.bumpDraws)

/-- A free linear address. -/
def drawAddr (s : State) : LinAddr × State := (Config.freeAddr s.draws, s.bumpDraws)

/-- A free word. -/
def drawWord (s : State) : Word × State := (Config.freeWord s.draws, s.bumpDraws)

/-! Registers of the machine. -/

/-- Reads a word register. -/
def State.reg16 (s : State) (r : Reg16) : Word := s.cpu.regs.get r

/-- Reads a byte register (10 R102). -/
def State.reg8 (s : State) (r : Reg8) : Byte := halfOf (s.reg16 (wholeOf r)) (isHighHalf r)

/-- Writes a word register and marks it written (31 R506). -/
def State.setReg16 (s : State) (r : Reg16) (v : Word) : State :=
  s.mapCpu fun c => { c with regs := c.regs.set r v, written := c.written.set r true }

/-- Writes a byte register: only its half changes, and the word register is marked written (10 R103, R145). -/
def State.setReg8 (s : State) (r : Reg8) (v : Byte) : State :=
  s.setReg16 (wholeOf r) (withHalf (s.reg16 (wholeOf r)) (isHighHalf r) v)

/-- Reads a segment register. -/
def State.seg (s : State) (r : Sreg) : Word := s.cpu.segs.get r

/-- Writes a segment register. -/
def State.setSeg (s : State) (r : Sreg) (v : Word) : State :=
  s.mapCpu fun c => { c with segs := c.segs.set r v }

/-- Writes IP. -/
def State.setIp (s : State) (v : Word) : State := s.mapCpu fun c => { c with ip := v }

/-- Sets whether the prefixes of one instruction go on in the next step (log 13). -/
def State.setDecoding (b : Bool) (s : State) : State := s.mapCpu fun c => { c with decoding := b }

/-- Replaces the nine flags. -/
def State.setFlags (s : State) (f : Flags) : State := s.mapCpu fun c => { c with flags := f }

/-- Changes the nine flags. -/
def State.mapFlags (g : Flags → Flags) (s : State) : State := s.setFlags (g s.cpu.flags)

/-! FLAGS as a word. -/

/-- `FLAGS_image = (FLAGS & 0x0FD5) | 0xF002`: bits 15:12 and 1 read 1, bits 5 and 3 read 0 (10 R120, R121). -/
def Flags.image (f : Flags) : Word :=
  BitVec.ofNat 16 (0xF002 + bitNat f.cf * 2 ^ 0 + bitNat f.pf * 2 ^ 2 + bitNat f.af * 2 ^ 4 + bitNat f.zf * 2 ^ 6 +
    bitNat f.sf * 2 ^ 7 + bitNat f.tf * 2 ^ 8 + bitNat f.ifl * 2 ^ 9 + bitNat f.df * 2 ^ 10 + bitNat f.ovf * 2 ^ 11)

/-- The flags a FLAGS word sets: the defined bits, the reserved ones ignored (10 R121). -/
def flagsOfWord (w : Word) : Flags :=
  { cf := w.getLsbD 0, pf := w.getLsbD 2, af := w.getLsbD 4, zf := w.getLsbD 6, sf := w.getLsbD 7, tf := w.getLsbD 8
    ifl := w.getLsbD 9, df := w.getLsbD 10, ovf := w.getLsbD 11 }

/-- The flags with the low byte's five replaced, as SAHF writes them (10 R121, 40 R631). -/
def Flags.setLow (f : Flags) (b : Byte) : Flags :=
  { f with sf := b.getLsbD 7, zf := b.getLsbD 6, af := b.getLsbD 4, pf := b.getLsbD 2, cf := b.getLsbD 0 }

end Sys2Proof.Machine
end

