-- ==== Sys2Proof/Machine/Bus.lean ====
section
/-! DEFINITION. The bus's memory, ROM and MMIO dispatch (20 R210 to R213): where an address leads, what a read of it gives
and what a write of it leaves. Bus cycles and the history are Biu.lean's. -/

namespace Sys2Proof.Machine

/-- The owner of an address's granule, `none` where the MMIO flag is clear (20 R211). -/
def ownerIn : List GranuleRoute → Nat → Option GranuleOwner
  | [], _ => none
  | g :: gs, k => if g.granule = k then some g.owner else ownerIn gs k

/-- The route of a linear address: the table is indexed by `a >> 13` (20 R211). -/
def Bus.route (b : Bus) (a : LinAddr) : Option GranuleOwner := ownerIn b.mmioMap (a.toNat >>> Config.granuleShift)

/-- The granule belongs to a device outside the block, whose answers are the environment's (D48). -/
def Bus.isDevice (b : Bus) (a : LinAddr) : Bool :=
  match b.route a with
  | some (.device _) => true
  | some .memory => false
  | some .rom => false
  | none => false

/-- The granule belongs to a ROM (20 R212). -/
def Bus.isRomGranule (b : Bus) (a : LinAddr) : Bool :=
  match b.route a with
  | some .rom => true
  | some .memory => false
  | some (.device _) => false
  | none => false

/-- The ROM flag of an address (20 R200). -/
def Bus.romFlag (b : Bus) (a : LinAddr) : Bool :=
  b.romRegions.any fun r => decide (r.base ≤ a.toNat) && decide (a.toNat < r.base + r.size)

/-- A write of the address reaches the array: no device, no ROM granule, no ROM flag, below the cap (20 R212; a granule
routed to memory keeps the ROM flag's rule, R213 and D56, log 18). -/
def Bus.writable (b : Bus) (a : LinAddr) : Bool :=
  !b.isDevice a && !b.isRomGranule a && !b.romFlag a && decide (a.toNat < b.convMemCap)

/-- The array byte of an address. -/
def Bus.byte (b : Bus) (a : LinAddr) : Byte := memGet b.mem a.toNat

/-- The bus after a write of a byte: dropped, or stored (20 R212). -/
def Bus.store (b : Bus) (a : LinAddr) (v : Byte) : Bus :=
  if b.writable a then { b with mem := memSet b.mem a.toNat v } else b

/-- A device's wait states in CPU clocks (21 R303, 61 R1312): d system ticks are one clock, a started clock counting whole
(the spec names no rounding: the model's choice, log 36); or one tick is m clocks. -/
def waitClocks (f : ClockFactor) (ticks : Nat) : Nat :=
  match f with
  | .divisor d => (ticks + (d - 1)) / d
  | .multiplier m => ticks * m

/-- The environment's next answer to an oracle read, free values when it has given none (D24, D48; log 10), its wait states
converted to CPU clocks. -/
def oracleRead (s : State) : OracleAnswer × State :=
  match s.env.answers with
  | r :: rs =>
    ({ r with waits := waitClocks s.params.clockFactor r.waits }, s.mapEnv fun e => { e with answers := rs })
  | [] =>
    ({ value := (drawByte s).1, waits := waitClocks s.params.clockFactor (Config.freeWaits s.draws) }, (drawByte s).2)

/-- The wait states, in CPU clocks, of a write that a device outside the block takes: the environment's next figure, a free
one when it has given none (21 R303; log 10). -/
def oracleWrite (s : State) : Nat × State :=
  match s.env.writeWaits with
  | n :: ns => (waitClocks s.params.clockFactor n, s.mapEnv fun e => { e with writeWaits := ns })
  | [] => (waitClocks s.params.clockFactor (Config.freeWaits s.draws), s.bumpDraws)

/-- The wait states of a write of a linear address: plain memory inserts none (21 R303). -/
def writeWaits (a : LinAddr) (s : State) : Nat × State := if s.bus.isDevice a then oracleWrite s else (0, s)

/-- The byte a read of a linear address returns, with the wait states of the device that owns it (20 R210, R303). -/
def dispatchRead (a : LinAddr) (s : State) : OracleAnswer × State :=
  if s.bus.isDevice a then oracleRead s else ({ value := s.bus.byte a, waits := 0 }, s)

end Sys2Proof.Machine
end

