-- ==== Sys2Proof/Machine/Biu.lean ====
section
/-! DEFINITION. The bus interface unit (21): the T-state machine, the bus cycles of memory accesses, the prefetch queue,
flushing, suspending and resuming, and the EU's own clocks around its accesses (R309, R330). -/

namespace Sys2Proof.Machine

/-! The T-state machine (21 R301, R302, R308). -/

/-- The cycle begun by a request: T1, address latched, status presented (21 R302). The byte of a write shows from T1 on, and
until a read captures its own the data bus keeps the byte of the cycle before (R302 says neither: the model's choices,
log 33). -/
def startCycle (r : BusRequest) (c : BusCycle) : BusCycle :=
  { c with tstate := .t1, busState := r.kind, access := r.access, addr := r.addr, data := r.data.getD c.data
           incoming := none, waits := 0, pending := none }

/-- The idle state: no cycle to start (21 R301). The record keeps the address, the access type and the data byte of the last
cycle while the bus is passive: no rule says what it shows then (the model's choice, log 43). -/
def idleCycle (c : BusCycle) : BusCycle := { c with tstate := .ti, busState := .passive }

/-- Where a cycle may begin: the pending request starts, else the bus idles (21 R308; a code fetch is put in `pending` in the
clock that launches it, by `startFetch`). -/
def nextCycle (c : BusCycle) : BusCycle :=
  match c.pending with
  | some r => startCycle r c
  | none => idleCycle c

/-- After T3 or Tw: another wait state, or T4, a read capturing its byte as T3 or the last Tw ends (21 R301, R302). -/
def waitOrEnd (c : BusCycle) : BusCycle :=
  if c.waits = 0 then { c with tstate := .t4, data := c.incoming.getD c.data, incoming := none }
  else { c with tstate := .tw, waits := c.waits - 1 }

/-- One clock of the T-state machine (21 R301), with no queue operation (21 R324). -/
def tick (c : BusCycle) : BusCycle :=
  let d := { c with clock := c.clock + 1, queueOp := .idle, queueByte := none }
  match c.tstate with
  | .ti => nextCycle d
  | .t1 => { d with tstate := .t2 }
  | .t2 => { d with tstate := .t3 }
  | .t3 => waitOrEnd d
  | .tw => waitOrEnd d
  | .t4 => nextCycle d

/-- One clock with a queue operation, and the byte it takes from the queue, if any (21 R300, R324). -/
def tickWith (op : QueueOp) (v : Option Byte) (c : BusCycle) : BusCycle := { tick c with queueOp := op, queueByte := v }

/-- n clocks (21 R309). -/
def ticks : Nat → BusCycle → BusCycle
  | 0, c => c
  | n + 1, c => ticks n (tick c)

/-- Clocks until a cycle in progress reaches T4 (21 R308: a cycle once started completes). -/
def clocksToT4 (c : BusCycle) : Nat :=
  match c.tstate with
  | .ti => 0
  | .t1 => 3 + c.waits
  | .t2 => 2 + c.waits
  | .t3 => 1 + c.waits
  | .tw => 1 + c.waits
  | .t4 => 0

/-- T1 of a request's cycle, from a free bus (21 R301, R308). -/
def beginCycle (r : BusRequest) (c : BusCycle) : BusCycle := tick { c with pending := some r }

/-- T1 and T2 of a request's cycle, from a free bus (21 R301, R308). -/
def openCycle (r : BusRequest) (c : BusCycle) : BusCycle := tick (beginCycle r c)

/-- T3, in which the data phase begins: the byte that a read will capture, and the wait states the device asks for as READY is
sampled (21 R302, R303). -/
def dataPhase (v : Option Byte) (waits : Nat) (c : BusCycle) : BusCycle := tick { c with incoming := v, waits := waits }

/-- The cycle in progress, if any, run on into T4 (21 R308). -/
def finishCycle (c : BusCycle) : BusCycle := ticks (clocksToT4 c) c

/-- The status code S2 S1 S0 of a bus state (21 R304). -/
def BusState.status : BusState → BitVec 3
  | .inta => 0 | .ioRead => 1 | .ioWrite => 2 | .halt => 3 | .codeFetch => 4 | .memRead => 5 | .memWrite => 6
  | .passive => 7

/-- The status code S4 S3 of an access type (21 R305). -/
def AccessType.status : AccessType → BitVec 2
  | .altData => 0 | .stack => 1 | .code => 2 | .data => 3

/-- The status code QS1 QS0 of a queue operation (21 R324). -/
def QueueOp.status : QueueOp → BitVec 2
  | .idle => 0 | .first => 1 | .flush => 2 | .subsequent => 3

/-- The 8288 command strobes (21 R306). -/
structure Strobes where
  ale : Bool
  mrdc : Bool
  amwc : Bool
  mwtc : Bool
  iorc : Bool
  aiowc : Bool
  iowc : Bool
  inta : Bool
  deriving DecidableEq, Repr

/-- The strobes a cycle record shows: ALE in T1, read and advanced write commands from T2, normal write commands from T3,
all released in T4 (21 R302, R306). -/
def strobes (c : BusCycle) : Strobes :=
  let early := c.tstate == .t2 || c.tstate == .t3 || c.tstate == .tw
  let late := c.tstate == .t3 || c.tstate == .tw
  { ale := c.tstate == .t1 && c.busState != .passive
    mrdc := early && (c.busState == .codeFetch || c.busState == .memRead)
    amwc := early && c.busState == .memWrite
    mwtc := late && c.busState == .memWrite
    iorc := early && c.busState == .ioRead
    aiowc := early && c.busState == .ioWrite
    iowc := late && c.busState == .ioWrite
    inta := early && c.busState == .inta }

/-- The access type of a memory access by segment register (21 R305). -/
def accessOf : Sreg → AccessType
  | .es => .altData | .cs => .code | .ss => .stack | .ds => .data

/-! The BIU's clocks (21 R309): the T-state machine with the queue behind it. -/

/-- The addresses of the bytes fetched and not yet taken: those of the queue, then that of the code fetch in progress
(21 R322). -/
def Biu.coming (b : Biu) : List LinAddr := b.queue.map QueueByte.addr ++ b.fetching.toList

/-- The code fetch in progress, if any, ends: the byte captured is queued and PFP advances (21 R321, R323). -/
def Biu.land (b : Biu) : Biu :=
  { b with queue := b.queue ++ (b.fetching.map fun a => { byte := b.cycle.data, addr := a }).toList, fetching := none
           pfp := b.pfp + BitVec.ofNat 16 b.fetching.toList.length }

/-- The T-state machine moves on by one clock; a code fetch that reaches T4 in it ends (21 R302, R324). -/
def Biu.clock (op : QueueOp) (v : Option Byte) (b : Biu) : Biu :=
  let c := { b with cycle := tickWith op v b.cycle }
  if c.cycle.tstate = .t4 then c.land else c

/-- A code fetch stands in T2: its data phase begins with the next clock (21 R302). -/
def BusCycle.fetchAtT2 (c : BusCycle) : Bool := c.tstate == .t2 && c.busState == .codeFetch

/-- The data phase of a code fetch: its byte is read, recorded, and on the bus to be captured, also where a flush has
discarded it (21 R302, R323, R327, R331). -/
def fetchData (s : State) : State :=
  let a := s.biu.cycle.addr
  let r := dispatchRead a s
  (r.2.record (.codeFetch a r.1.value)).mapBiu fun b =>
    { b with cycle := { b.cycle with incoming := some r.1.value, waits := r.1.waits } }

/-- One clock of the BIU, with the queue operation of the clock (21 R309, R324). -/
def State.clock (op : QueueOp) (v : Option Byte) (s : State) : State :=
  (if s.biu.cycle.fetchAtT2 then fetchData s else s).mapBiu (Biu.clock op v)

/-- The cycle in progress goes on to its data phase, if that is still to come. -/
def State.toData (s : State) : State :=
  match s.biu.cycle.tstate with
  | .t1 => (s.clock .idle none).clock .idle none
  | .t2 => s.clock .idle none
  | .ti => s
  | .t3 => s
  | .tw => s
  | .t4 => s

/-- The cycle in progress, if any, completes (21 R308). -/
def State.settle (s : State) : State :=
  s.toData.mapBiu fun b => Biu.land { b with cycle := finishCycle b.cycle }

/-- An EU request for a write: a cycle in progress completes, then T1, in which the EU is released (21 R308, R309). -/
def State.beginCycle (s : State) (r : BusRequest) : State :=
  s.settle.mapBiu fun b => { b with cycle := Machine.beginCycle r b.cycle }

/-- Any other EU request: a cycle in progress completes, then T1 and T2 (21 R308). A read, an INTA cycle and the halt cycle hold
the EU to the end of their data phase (21 R309; log 24). -/
def State.openCycle (s : State) (r : BusRequest) : State :=
  s.settle.mapBiu fun b => { b with cycle := Machine.openCycle r b.cycle }

/-- The data phase of a cycle that holds the EU, to its end: T3, the wait states, T4 (21 R302, R309). -/
def State.holdData (s : State) (v : Option Byte) (waits : Nat) : State :=
  s.mapBiu fun b => { b with cycle := finishCycle (dataPhase v waits b.cycle) }

/-- The data phase of a write, begun: T3, in a clock that shows the EU's queue operation. The clocks that follow carry it on (21
R302, R309, R324). -/
def State.writeData (s : State) (op : QueueOp) (waits : Nat) : State :=
  s.mapBiu fun b => { b with cycle := { dataPhase none waits b.cycle with queueOp := op } }

/-! Code fetches and the queue (21 R320 to R331). -/

/-- A code fetch may start: a free queue byte, no fetch in progress, fetching not suspended, no EU request pending, the bus
free (21 R308, R323). -/
def mayFetch (s : State) : Bool :=
  decide (s.biu.queue.length < Config.queueCap) && s.biu.fetching.isNone && !s.biu.fetchSuspended &&
    s.biu.cycle.pending.isNone && (s.biu.cycle.tstate == .ti || s.biu.cycle.tstate == .t4)

/-- A code fetch of the byte at `lin(CS, PFP)` is launched: the clock of its T1, with the EU's queue operation of that clock (21
R308, R323, R324). -/
def startFetch (s : State) (op : QueueOp := .idle) (v : Option Byte := none) : State :=
  let a := lin s.cpu.segs.cs s.biu.pfp
  s.mapBiu fun b =>
    { b with fetching := some a
             cycle := tickWith op v
               { b.cycle with pending := some { kind := .codeFetch, access := .code, addr := a, data := none } } }

/-- One clock with no EU request pending: a code fetch is launched where one may start, and otherwise the bus cycle in progress
goes on or the bus idles, whatever the EU's queue operation in it (21 R308, R309, R323). -/
def euClock (s : State) (op : QueueOp := .idle) (v : Option Byte := none) : State :=
  if mayFetch s then startFetch s op v else s.clock op v

/-- n clocks that the EU spends on its own (21 R309). -/
def euClocks : Nat → State → State
  | 0, s => s
  | n + 1, s => euClocks n (euClock s)

/-- The number of those clocks, which no rule gives (31 R511): the environment's next figure, a draw when it has given none
(log 7). -/
def takeEuClocks (s : State) : Nat × State :=
  match s.env.euClocks with
  | n :: ns => (n, s.mapEnv fun e => { e with euClocks := ns })
  | [] => (Config.euClocks s.draws, s.bumpDraws)

/-- The EU's own clocks before a fetch8 and before and after each EU access (21 R309; after a write, `carryWrite`). As their number is free, so is that of
the code fetches that fall there (21 R330). -/
def biuTurn (s : State) : State := euClocks (takeEuClocks s).1 (takeEuClocks s).2

/-- The clocks until the queue holds a byte: the cycle in progress completes, and where that was no code fetch one is made
(21 R325, R330). -/
def awaitByte (s : State) : State := if s.settle.biu.queue.isEmpty then (startFetch s.settle).settle else s.settle

/-- The head of the queue removed, in a clock that records the operation and the byte and in which a code fetch is launched where
one may start, the byte taken having left its room (21 R308, R323 to R325; log 24). -/
def takeByte (op : QueueOp) (s : State) : State :=
  euClock (s.mapBiu fun b => { b with queue := b.queue.drop 1 }) op (s.biu.queue.head?.map QueueByte.byte)

/-- The queue operation of an instruction byte taken: its first byte, a prefix included, or a later one (21 R324, R325;
log 25). -/
def fetchOp (c : Cpu) : QueueOp := if c.ip = c.ipStart ∧ c.pfx = PrefixState.none then .first else .subsequent

/-- `fetch8()`: the next byte of the queue, waited for when it is empty; IP advances by one (21 R325, R330). -/
def fetch8 (s : State) : Byte × State :=
  let s1 := biuTurn s
  let s2 := if s1.biu.queue.isEmpty then awaitByte s1 else s1
  let op := fetchOp s2.cpu
  match s2.biu.queue with
  | q :: _ => (q.byte, (takeByte op s2).setIp (s2.cpu.ip + 1))
  | [] => (0, s2)

/-- The queue emptied, the byte of a code fetch in progress discarded, and PFP set to IP (21 R327). -/
def Biu.emptied (ip : Word) (b : Biu) : Biu := { b with queue := [], fetching := none, pfp := ip }

/-- `FlushQueue()`, in a clock that records it; the cycle of a code fetch in progress goes on. No fetch is launched in it: a
control transfer suspends fetching until it has flushed (21 R324, R327, R329). -/
def flushQueue (s : State) : State := (s.clock .flush none).mapBiu (Biu.emptied s.cpu.ip)

/-- `SuspendFetch()` (21 R329). -/
def suspendFetch (s : State) : State := s.mapBiu fun b => { b with fetchSuspended := true }

/-- `ResumeFetch()` (21 R329). -/
def resumeFetch (s : State) : State := s.mapBiu fun b => { b with fetchSuspended := false }

/-! EU memory accesses, one byte each (20 R210, R212, R222). -/

/-- `MemRead(a, 1)` by the EU, in the data phase of its bus cycle, with its history entry (20 R210, 21 R302). -/
def memRead (access : AccessType) (a : LinAddr) (s : State) : Byte × State :=
  let r := dispatchRead a (s.openCycle { kind := .memRead, access := access, addr := a, data := none })
  (r.1.value, (r.2.holdData (some r.1.value) r.1.waits).record (.memRead access a r.1.value))

/-- The EU's clocks after the T1 of its write, their number counted from there: they lead through T2 to the data phase and on.
Where they are fewer the cycle reaches its data phase all the same, before the EU's next access, which waits for the T4, and
before the instruction's step ends (21 R308, R309, 31 R504; log 24). -/
def carryWrite (data : QueueOp → State → State) (s : State) : State :=
  let c := takeEuClocks s
  euClocks (c.1 - 2) (data .idle (c.2.clock .idle none))

/-- A memory write of the EU is started: T1 (21 R309). -/
def beginWrite (access : AccessType) (a : LinAddr) (v : Byte) (s : State) : State :=
  s.beginCycle { kind := .memWrite, access := access, addr := a, data := some v }

/-- The clock of its data phase, in which the byte is stored and recorded (20 R212, 21 R302). -/
def dataWrite (access : AccessType) (a : LinAddr) (v : Byte) (op : QueueOp) (s : State) : State :=
  let w := writeWaits a s
  ((w.2.writeData op w.1).record (.memWrite access a v)).mapBus fun b => b.store a v

/-- `MemWrite(a, 1, v)` by the EU, and the clocks that follow (20 R212, 21 R309). -/
def memWrite (access : AccessType) (a : LinAddr) (v : Byte) (s : State) : State :=
  carryWrite (dataWrite access a v) (beginWrite access a v s)

/-- The EU reads the byte at an offset of a segment base, the BIU taking its turns around it (21 R330). -/
def readByteAt (access : AccessType) (base off : Word) (s : State) : Byte × State :=
  let r := memRead access (lin base off) (biuTurn s)
  (r.1, biuTurn r.2)

/-- The EU writes the byte at an offset of a segment base. -/
def writeByteAt (access : AccessType) (base off : Word) (v : Byte) (s : State) : State :=
  memWrite access (lin base off) v (biuTurn s)

/-- The EU reads a word: low byte at the offset, high byte at the next offset of the same segment (20 R220, R222). -/
def readWordAt (access : AccessType) (base off : Word) (s : State) : Word × State :=
  let lo := readByteAt access base off s
  let hi := readByteAt access base (off + 1) lo.2
  (mkWord hi.1 lo.1, hi.2)

/-- The EU writes a word, low byte first (00 R12). -/
def writeWordAt (access : AccessType) (base off : Word) (v : Word) (s : State) : State :=
  writeByteAt access base (off + 1) (hiByte v) (writeByteAt access base off (loByte v) s)

/-- A control transfer's change of CS:IP and its flush, n clocks of the EU after the T1 of a write: the flush falls in the clock
that leads to T2, in that of the data phase, or after it (21 R309, R327). -/
def jumpInWrite (access : AccessType) (a : LinAddr) (v : Byte) (jump : Cpu → Cpu) : Nat → State → State
  | 0, s => dataWrite access a v .idle (flushQueue (s.mapCpu jump))
  | 1, s =>
    let t := (s.clock .idle none).mapCpu jump
    (dataWrite access a v .flush t).mapBiu (Biu.emptied t.cpu.ip)
  | n + 2, s => flushQueue ((euClocks n (dataWrite access a v .idle (s.clock .idle none))).mapCpu jump)

end Sys2Proof.Machine
end

