-- ==== Sys2Proof/Machine/Dma.lean ====
section
/-! DEFINITION. The 8237A DMA controller and its page registers (61 R1400 to R1416). -/

namespace Sys2Proof.Machine

/-- Channel c. -/
def Dma.get (d : Dma) (c : BitVec 2) : DmaChannel :=
  match c.toNat with
  | 0 => d.ch0 | 1 => d.ch1 | 2 => d.ch2 | _ => d.ch3

/-- Channel c replaced. -/
def Dma.set (d : Dma) (c : BitVec 2) (x : DmaChannel) : Dma :=
  match c.toNat with
  | 0 => { d with ch0 := x } | 1 => { d with ch1 := x } | 2 => { d with ch2 := x } | _ => { d with ch3 := x }

/-- Every channel changed. -/
def Dma.mapAll (f : DmaChannel → DmaChannel) (d : Dma) : Dma :=
  { d with ch0 := f d.ch0, ch1 := f d.ch1, ch2 := f d.ch2, ch3 := f d.ch3 }

/-! The mode register, whose bits 7 to 2 are stored (61 R1403). -/

/-- Transfer types (61 R1403). -/
inductive DmaType where
  | verify | write | read | illegal
  deriving DecidableEq, Repr

/-- Mode selects (61 R1403). -/
inductive DmaSelect where
  | demand | single | block | cascade
  deriving DecidableEq, Repr

/-- The transfer type, bits 3 and 2 of the mode byte. -/
def DmaChannel.xfer (c : DmaChannel) : DmaType :=
  match c.mode.getLsbD 1, c.mode.getLsbD 0 with
  | false, false => .verify
  | false, true => .write
  | true, false => .read
  | true, true => .illegal

/-- Autoinitialise, bit 4 of the mode byte. -/
def DmaChannel.autoinit (c : DmaChannel) : Bool := c.mode.getLsbD 2

/-- Address decrement, bit 5 of the mode byte. -/
def DmaChannel.decrement (c : DmaChannel) : Bool := c.mode.getLsbD 3

/-- The mode select, bits 7 and 6 of the mode byte. -/
def DmaChannel.select (c : DmaChannel) : DmaSelect :=
  match c.mode.getLsbD 5, c.mode.getLsbD 4 with
  | false, false => .demand
  | false, true => .single
  | true, false => .block
  | true, true => .cascade

/-! Requests and priority (61 R1409, R1413, R1414). -/

/-- DREQ of channel c, after the sense inversion of command bit 6 (61 R1409). -/
def dreqActive (s : State) (c : BitVec 2) : Bool :=
  Bool.xor (if c = 0 then s.dev.refreshReq else s.env.dreq.getLsbD c.toNat) (s.dev.dma.command.getLsbD 6)

/-- Channel c asks for service (61 R1414). -/
def dmaRequest (s : State) (c : BitVec 2) : Bool :=
  (dreqActive s c && !(s.dev.dma.get c).mask) || (s.dev.dma.get c).req

/-- The channels by priority: fixed, or rotating from the one after `rot_last` (61 R1413). -/
def Dma.order (d : Dma) : List (BitVec 2) :=
  if d.command.getLsbD 4 then [d.rotLast + 1, d.rotLast + 2, d.rotLast + 3, d.rotLast] else [0, 1, 2, 3]

/-- The channel to service, leaving out those that reached terminal count in this step (61 R1414). -/
def dmaChoice (s : State) (done : List (BitVec 2)) : Option (BitVec 2) :=
  s.dev.dma.order.find? fun c => dmaRequest s c && !done.contains c

/-- The transfer is refused (61 R1414, D29). -/
def dmaRefused (s : State) (c : BitVec 2) : Bool :=
  let x := s.dev.dma.get c
  (s.dev.dma.command.getLsbD 0 && (c == 0 || c == 1)) || x.select == .cascade || x.xfer == .illegal ||
    (x.req && x.select == .demand)

/-- The environment's DREQ lines sampled: a scheduled sample replaces them (61 R1414; log 9). -/
def sampleDreq (s : State) : State :=
  match s.env.dreqSamples with
  | d :: ds => s.mapEnv fun e => { e with dreq := d, dreqSamples := ds }
  | [] => s

/-! One transfer (61 R1410, R1411). -/

/-- The linear address of channel c's next transfer (61 R1408). -/
def DmaChannel.addr (c : DmaChannel) : LinAddr := c.page ++ c.curAddr

/-- The channel after a transfer: address stepped, count decremented, terminal count dealt with (61 R1410, R1411). -/
def DmaChannel.advance (c : DmaChannel) : DmaChannel :=
  let d := { c with curAddr := if c.decrement then c.curAddr - 1 else c.curAddr + 1, curCount := c.curCount - 1 }
  if d.curCount = 0xFFFF then
    if c.autoinit then { d with tc := true, req := false, curAddr := c.baseAddr, curCount := c.baseCount }
    else { d with tc := true, req := false, mask := true }
  else d

/-- This transfer is the channel's last: it reaches terminal count (61 R1410). -/
def DmaChannel.lastTransfer (c : DmaChannel) : Bool := c.curCount == 0

/-- The memory access of a transfer (61 R1410); a channel 0 read is a refresh and has none (61 R1412). -/
def dmaAccess (c : BitVec 2) (x : DmaChannel) (s : State) : State :=
  match x.xfer with
  | .verify => s
  | .write =>
    let r := oracleRead s
    (r.2.mapBus fun b => b.store x.addr r.1.value).record (.dmaWrite c.toNat x.addr r.1.value)
  | .read =>
    if c = 0 then s
    else
      let r := dispatchRead x.addr s
      r.2.record (.dmaRead c.toNat x.addr r.1.value)
  | .illegal => s

/-- One transfer on channel c (61 R1410). -/
def dmaTransfer (c : BitVec 2) (s : State) : State :=
  let x := s.dev.dma.get c
  (dmaAccess c x s).mapDev fun d =>
    { d with dma := d.dma.set c x.advance, refreshReq := if c = 0 then false else d.refreshReq }

/-- A burst: in block mode until terminal count, in demand mode while DREQ stays active; the flag says terminal count was
reached. The fuel, 65536, is the longest burst a 16-bit count allows. -/
def dmaBurst : Nat → BitVec 2 → State → Bool × State
  | 0, _, s => (true, s)
  | n + 1, c, s =>
    let x := s.dev.dma.get c
    let t := dmaTransfer c s
    if x.lastTransfer then (true, t)
    else match x.select with
      | .block => dmaBurst n c t
      | .demand =>
        let u := sampleDreq t
        if dreqActive u c then dmaBurst n c u else (false, u)
      | .single => (false, t)
      | .cascade => (false, t)

/-- The service loop of `dma_step` (61 R1414). The fuel, four counts of 65536 and one more turn, is never used up: every
turn transfers at least one byte of a channel that has not reached terminal count. -/
def dmaLoop : Nat → List (BitVec 2) → State → State
  | 0, _, s => s
  | n + 1, done, s =>
    let u := sampleDreq s
    match dmaChoice u done with
    | none => u
    | some c =>
      if dmaRefused u c then { u with marks := { u.marks with refusal := some (.dmaForm c.toNat) } }
      else
        let r := dmaBurst 65536 c u
        let t := r.2.mapDev fun d => { d with dma := { d.dma with rotLast := c } }
        dmaLoop n (if r.1 then c :: done else done) t

/-- `dma_step(k)` (61 R1414); the clock budget decides timing only. -/
def dmaStep (s : State) : State :=
  if s.dev.dma.command.getLsbD 2 then s else dmaLoop (4 * 65536 + 1) [] s

/-! Registers (61 R1401 to R1408). -/

/-- A byte of a 16-bit register replaced, by the flip-flop. -/
def withByte (w : Word) (ff : Bool) (v : Byte) : Word := if ff then mkWord v (loByte w) else mkWord (hiByte w) v

/-- OUT 0x00 to 0x07 (61 R1401): address on even ports, count on odd ones. -/
def Dma.writeXfer (d : Dma) (port : BitVec 3) (v : Byte) : Dma :=
  let c : BitVec 2 := port.extractLsb' 1 2
  let x := d.get c
  let y := if port.getLsbD 0 then
      { x with baseCount := withByte x.baseCount d.ff v, curCount := withByte x.curCount d.ff v }
    else { x with baseAddr := withByte x.baseAddr d.ff v, curAddr := withByte x.curAddr d.ff v }
  { d.set c y with ff := !d.ff }

/-- IN 0x00 to 0x07 (61 R1401). -/
def Dma.readXfer (d : Dma) (port : BitVec 3) : Byte × Dma :=
  let x := d.get (port.extractLsb' 1 2)
  let w := if port.getLsbD 0 then x.curCount else x.curAddr
  (if d.ff then hiByte w else loByte w, { d with ff := !d.ff })

/-- OUT 0x0B (61 R1403). -/
def Dma.writeMode (d : Dma) (v : Byte) : Dma :=
  let c : BitVec 2 := v.setWidth 2
  d.set c { d.get c with mode := v.extractLsb' 2 6 }

/-- OUT 0x09 (61 R1405). -/
def Dma.writeRequest (d : Dma) (v : Byte) : Dma :=
  let c : BitVec 2 := v.setWidth 2
  d.set c { d.get c with req := v.getLsbD 2 }

/-- OUT 0x0A (61 R1406). -/
def Dma.writeMask (d : Dma) (v : Byte) : Dma :=
  let c : BitVec 2 := v.setWidth 2
  d.set c { d.get c with mask := v.getLsbD 2 }

/-- OUT 0x0F (61 R1406). -/
def Dma.writeMasks (d : Dma) (v : Byte) : Dma :=
  { d with ch0 := { d.ch0 with mask := v.getLsbD 0 }, ch1 := { d.ch1 with mask := v.getLsbD 1 }
           ch2 := { d.ch2 with mask := v.getLsbD 2 }, ch3 := { d.ch3 with mask := v.getLsbD 3 } }

/-- OUT 0x0D: master clear (61 R1407). -/
def Dma.masterClear (d : Dma) : Dma :=
  { d.mapAll fun x => { x with tc := false, req := false, mask := true } with
    command := 0, temp := 0, ff := false, rotLast := 3 }

/-- OUT 0x80 to 0x83: the page register of a channel (61 R1408). -/
def Dma.writePage (d : Dma) (c : BitVec 2) (v : Byte) : Dma := d.set c { d.get c with page := v.setWidth 4 }

/-- The status byte (61 R1404): terminal counts in bits 3 to 0, request states in bits 7 to 4. -/
def dmaStatus (s : State) : Byte :=
  let d := s.dev.dma
  let bit (i : Nat) (b : Bool) : Byte := if b then 1#8 <<< i else 0
  bit 0 d.ch0.tc ||| bit 1 d.ch1.tc ||| bit 2 d.ch2.tc ||| bit 3 d.ch3.tc |||
    bit 4 (dreqActive s 0 || d.ch0.req) ||| bit 5 (dreqActive s 1 || d.ch1.req) |||
    bit 6 (dreqActive s 2 || d.ch2.req) ||| bit 7 (dreqActive s 3 || d.ch3.req)

/-- The controller after a status read: the terminal-count bits cleared (61 R1404). -/
def Dma.clearTc (d : Dma) : Dma := d.mapAll fun x => { x with tc := false }

end Sys2Proof.Machine
end

