-- ==== Sys2Proof/Machine/Pic.lean ====
section
/-! DEFINITION. The 8259A programmable interrupt controller (61 R1330 to R1343). -/

namespace Sys2Proof.Machine

/-! Priority resolution (61 R1340). -/

/-- `prio(r)`: 7 for `lowest + 1`, down to 0 for `lowest`. -/
def Pic.prio (p : Pic) (r : BitVec 3) : Nat := 7 - (r - p.lowest - 1).toNat

/-- The levels from the highest priority to the lowest. -/
def Pic.levels (p : Pic) : List (BitVec 3) :=
  [p.lowest + 1, p.lowest + 2, p.lowest + 3, p.lowest + 4, p.lowest + 5, p.lowest + 6, p.lowest + 7, p.lowest]

/-- `blocked(r)`: fully nested, or in special mask mode only by r itself. -/
def Pic.blocked (p : Pic) (r : BitVec 3) : Bool :=
  if p.smm then p.isr.getLsbD r.toNat
  else p.levels.any fun q => p.isr.getLsbD q.toNat && decide (p.prio r ≤ p.prio q)

/-- Level r has an unmasked request that nothing blocks. -/
def Pic.eligible (p : Pic) (r : BitVec 3) : Bool :=
  p.irr.getLsbD r.toNat && !p.imr.getLsbD r.toNat && !p.blocked r

/-- The winning level, if any. -/
def Pic.winner (p : Pic) : Option (BitVec 3) := p.levels.find? p.eligible

/-- The INT output (61 R1340): the recomputation the spec asks for after every change is this function. -/
def Pic.int (p : Pic) : Bool := p.init == .ready && p.winner.isSome

/-- `hs`: the highest-priority level in service, unmasked ones only in special mask mode (61 R1338). The rule names that
exception for "a non-specific EOI"; that it covers the rotate on non-specific EOI too, `lowest` taking the level so found, is
the model's choice (log 44). -/
def Pic.inService (p : Pic) : Option (BitVec 3) :=
  p.levels.find? fun r => p.isr.getLsbD r.toNat && !(p.smm && p.imr.getLsbD r.toNat)

/-! Sensing (61 R1339). -/

/-- The IR levels sensed: level mode follows the lines, edge mode latches rising edges and drops a request whose line is
low. -/
def Pic.sense (p : Pic) : Pic :=
  { p with irr := if p.ltim then p.ir else (p.irr ||| (p.ir &&& ~~~p.edgePrev)) &&& p.ir
           edgePrev := p.ir }

/-- All eight IR levels set and sensed. -/
def Pic.setLines (p : Pic) (ir : Byte) : Pic := Pic.sense { p with ir := ir }

/-- One IR level set and sensed at once (61 R1302). -/
def Pic.setLine (p : Pic) (i : Nat) (level : Bool) : Pic := p.setLines (setBit p.ir i level)

/-! Register writes. -/

/-- ICW1 (61 R1332). -/
def Pic.icw1 (p : Pic) (v : Byte) : Pic :=
  let q := { p with
    ltim := v.getLsbD 3, sngl := v.getLsbD 1, ic4 := v.getLsbD 0, imr := 0, isr := 0, irr := 0, edgePrev := p.ir
    lowest := 7, smm := false, readSel := .irr, poll := false, rotAeoi := false, init := .wantIcw2 }
  if v.getLsbD 0 then q
  else { q with upm := false, aeoi := false, buf := false, ms := false, sfnm := false }

/-- ICW2 to ICW4 by where the sequence stands (61 R1333 to R1335); dropped before ICW1 (61 R1331). -/
def Pic.nextIcw (p : Pic) (v : Byte) : Pic :=
  match p.init with
  | .uninit => p
  | .wantIcw2 =>
    { p with base := v &&& 0xF8, init := if !p.sngl then .wantIcw3 else if p.ic4 then .wantIcw4 else .ready }
  | .wantIcw3 => { p with icw3 := v, init := if p.ic4 then .wantIcw4 else .ready }
  | .wantIcw4 =>
    { p with upm := v.getLsbD 0, aeoi := v.getLsbD 1, ms := v.getLsbD 2, buf := v.getLsbD 3, sfnm := v.getLsbD 4
             init := .ready }
  | .ready => p

/-- OCW1 (61 R1337). -/
def Pic.ocw1 (p : Pic) (v : Byte) : Pic := { p with imr := v }

/-- OCW2 (61 R1338): R SL EOI in bits 7 to 5, the level L in bits 2 to 0. -/
def Pic.ocw2 (p : Pic) (v : Byte) : Pic :=
  let l : BitVec 3 := v.setWidth 3
  match v.getLsbD 7, v.getLsbD 6, v.getLsbD 5 with
  | false, false, true =>
    match p.inService with
    | some r => { p with isr := setBit p.isr r.toNat false }
    | none => p
  | false, true, true => { p with isr := setBit p.isr l.toNat false }
  | true, false, true =>
    match p.inService with
    | some r => { p with isr := setBit p.isr r.toNat false, lowest := r }
    | none => p
  | true, true, true => { p with isr := setBit p.isr l.toNat false, lowest := l }
  | true, false, false => { p with rotAeoi := true }
  | false, false, false => { p with rotAeoi := false }
  | true, true, false => { p with lowest := l }
  | false, true, false => p

/-- OCW3 (61 R1336). -/
def Pic.ocw3 (p : Pic) (v : Byte) : Pic :=
  { p with smm := if v.getLsbD 6 then v.getLsbD 5 else p.smm
           readSel := if v.getLsbD 1 then (if v.getLsbD 0 then .isr else .irr) else p.readSel
           poll := v.getLsbD 2 }

/-- A write of the PIC at A0 (61 R1331). -/
def Pic.write (p : Pic) (a0 : Bool) (v : Byte) : Pic :=
  if a0 then (if p.init = .ready then p.ocw1 v else p.nextIcw v)
  else if v.getLsbD 4 then p.icw1 v
  else if v.getLsbD 3 then p.ocw3 v
  else p.ocw2 v

/-! Reads and the acknowledge. -/

/-- The first INTA for level r: in service, and in edge mode no longer requested (61 R1341). -/
def Pic.accept (p : Pic) (r : BitVec 3) : Pic :=
  { p with isr := setBit p.isr r.toNat true
           irr := if p.ltim then p.irr else setBit p.irr r.toNat false }

/-- The poll response and the PIC after it (61 R1336). A poll is answered with `uPM = 0` and on a cascaded level too: R1341's
refusals are those of the INTA sequence, which gives a vector (the model's reading, log 35). -/
def Pic.pollRead (p : Pic) : Byte × Pic :=
  match p.winner with
  | some r => if p.init = .ready then (0x80 ||| r.setWidth 8, { p.accept r with poll := false })
    else (0, { p with poll := false })
  | none => (0, { p with poll := false })

/-- A read of an initialised PIC at A0 (61 R1331, R1336). -/
def Pic.read (p : Pic) (a0 : Bool) : Byte × Pic :=
  if a0 then (p.imr, p)
  else if p.poll then p.pollRead
  else match p.readSel with
    | .irr => (p.irr, p)
    | .isr => (p.isr, p)

/-- The INTA sequence (61 R1341): the vector and the PIC after it, or `none` where the form is refused. -/
def Pic.acknowledge (p : Pic) : Option (Byte × Pic) :=
  if !p.upm then none
  else match p.winner with
    | some r =>
      if p.icw3.getLsbD r.toNat && !p.sngl then none
      else
        let q := p.accept r
        let q := if p.aeoi then
            { q with isr := setBit q.isr r.toNat false, lowest := if p.rotAeoi then r else p.lowest }
          else q
        some (p.base + r.setWidth 8, q)
    | none => some (p.base + 7, p)

end Sys2Proof.Machine
end

