-- ==== Sys2Proof/Machine/Pit.lean ====
section
/-! DEFINITION. The 8253 programmable interval timer (61 R1350 to R1368) and its wiring to IR0, DREQ0 and GATE2
(61 R1302). -/

namespace Sys2Proof.Machine

/-! Counting arithmetic (61 R1355, R1360). -/

/-- The four-digit BCD decrement modulo 10000. -/
def bcdDec (x : Word) : Word :=
  if x = 0 then 0x9999
  else if x.extractLsb' 0 4 ≠ (0 : BitVec 4) then x - 1
  else if x.extractLsb' 4 4 ≠ (0 : BitVec 4) then x - 0x7
  else if x.extractLsb' 8 4 ≠ (0 : BitVec 4) then x - 0x67
  else x - 0x667

/-- `dec(x)` (61 R1366). -/
def PitCounter.dec (c : PitCounter) (x : Word) : Word := if c.bcd then bcdDec x else x - 1

/-- `even(N)` (61 R1360); the value 0 stands for 65536 or 10000 and is even. -/
def evenCount (x : Word) : Word := x &&& 0xFFFE

/-- Every digit is at most 9. -/
def bcdValid (x : Word) : Bool :=
  decide ((x.extractLsb' 0 4).toNat ≤ 9) && decide ((x.extractLsb' 4 4).toNat ≤ 9) &&
    decide ((x.extractLsb' 8 4).toNat ≤ 9) && decide ((x.extractLsb' 12 4).toNat ≤ 9)

/-- A count below the mode's minimum, or a BCD count with a digit above 9: OUT and CE become draws (61 R1355). -/
def PitCounter.illegalCount (c : PitCounter) : Bool :=
  ((c.mode == .m2 || c.mode == .m3) && c.cr == 1) || (c.bcd && !bcdValid c.cr)

/-! Control word and count (61 R1352 to R1354). -/

/-- The mode of the M field, 6 and 7 standing for 2 and 3 (61 R1352). -/
def pitModeOf (m : BitVec 3) : PitMode :=
  match m.toNat with
  | 0 => .m0 | 1 => .m1 | 2 => .m2 | 3 => .m3 | 4 => .m4 | 5 => .m5 | 6 => .m2 | _ => .m3

/-- The read/load field (61 R1350, R1352); 00 is the latch command. -/
def pitRlOf (b : BitVec 2) : PitRL :=
  match b.toNat with
  | 1 => .lsb | 2 => .msb | _ => .both

/-- The counter latch command (61 R1353). -/
def PitCounter.latch (c : PitCounter) : PitCounter :=
  if c.latched then c else { c with ol := c.ce, latched := true }

/-- A control word for this counter (61 R1352). -/
def PitCounter.control (c : PitCounter) (v : Byte) : PitCounter :=
  if v.extractLsb' 4 2 = (0 : BitVec 2) then c.latch
  else
    let m := pitModeOf (v.extractLsb' 1 3)
    { c with rl := pitRlOf (v.extractLsb' 4 2), mode := m, bcd := v.getLsbD 0, wff := false, rff := false
             latched := false, programmed := true, countValid := false, loadPending := false, counting := false
             extra := false, out := m != .m0, free := false }

/-- The count is complete (61 R1354). An illegal count makes OUT and CE draws from here on, although an older count may still
run or the trigger be to come: R1355 does not say from which moment, and this admits the most (the model's reading, log 21). -/
def PitCounter.complete (c : PitCounter) : PitCounter :=
  let d := { c with countValid := true, free := c.free || c.illegalCount }
  match c.mode with
  | .m0 => { d with out := false, loadPending := true }
  | .m1 => d
  | .m2 => if c.counting then d else { d with loadPending := true }
  | .m3 => if c.counting then d else { d with loadPending := true }
  | .m4 => { d with loadPending := true }
  | .m5 => d

/-- A count write (61 R1354); dropped before any control word (D26). Between the two count bytes (RL = 3) the half-written CR can
be loaded, as 1 or with a BCD digit above 9: at the end of a period or half cycle of mode 2 or 3, by a rising edge of GATE2 in
mode 1, 2, 3 or 5, or by a load still pending. Whether such a load is one of a count R1355 makes draws of, no rule says: in every
mode the model counts on from it, and tests a count only when its write completes (its choice, log 45). -/
def PitCounter.writeCount (c : PitCounter) (v : Byte) : PitCounter :=
  if !c.programmed then c
  else match c.rl with
    | .lsb => PitCounter.complete { c with cr := mkWord 0 v }
    | .msb => PitCounter.complete { c with cr := mkWord v 0 }
    | .both =>
      if c.wff then PitCounter.complete { c with cr := mkWord v (loByte c.cr), wff := false }
      else { c with cr := mkWord (hiByte c.cr) v, wff := true, counting := if c.mode = .m0 then false else c.counting }

/-! Counter read (61 R1364). -/

/-- The byte a read gives when it is defined. -/
def PitCounter.readValue (c : PitCounter) : Byte :=
  let src := if c.latched then c.ol else c.ce
  match c.rl with
  | .lsb => loByte src
  | .msb => hiByte src
  | .both => if c.rff then hiByte src else loByte src

/-- The counter after a read. -/
def PitCounter.afterRead (c : PitCounter) : PitCounter :=
  match c.rl with
  | .lsb => { c with latched := false }
  | .msb => { c with latched := false }
  | .both => if c.rff then { c with rff := false, latched := false } else { c with rff := true }

/-- A read returns a draw: unprogrammed, before the first load, or a free counting element (61 R1364, R1355; log 21). -/
def PitCounter.readIsFree (c : PitCounter) : Bool := !c.programmed || !c.loaded || (c.free && !c.latched)

/-! Gate (61 R1356). -/

/-- A GATE level applied: a rising edge is remembered for the next clock, a falling edge sets OUT in modes 2 and 3, also where
an illegal count makes OUT a draw, which it is again from the next clock on (R1356 against R1355: the model's choice, log 41). -/
def PitCounter.setGate (c : PitCounter) (g : Bool) : PitCounter :=
  { c with gate := g
           gateRise := if g && !c.gate then true else c.gateRise
           out := if !g && c.gate && (c.mode == .m2 || c.mode == .m3) then true else c.out }

/-! The tick engine (61 R1366). -/

/-- `load(i)`. R1361 and R1362 have OUT low for one clock; this load clears `strobe` and leaves OUT. So where the strobe's own next
clock is a load (a trigger of mode 5, the load clock of a new count in mode 4), OUT stays low until the next strobe's end:
which holds there, no rule says, and the model follows R1366 (its choice, log 46). -/
def PitCounter.load (c : PitCounter) : PitCounter :=
  { c with ce := if c.mode = .m3 then evenCount c.cr else c.cr
           counting := true, expired := false, strobe := false, extra := false, loaded := true }

/-- A counting clock of modes 0 and 1 (61 R1357, R1358). -/
def PitCounter.clock01 (c : PitCounter) : PitCounter :=
  let n := c.dec c.ce
  if n = 0 ∧ c.expired = false then { c with ce := n, out := true, expired := true } else { c with ce := n }

/-- A counting clock of mode 2 (61 R1359). -/
def PitCounter.clock2 (c : PitCounter) : PitCounter :=
  if c.out then { c with ce := c.dec c.ce, out := c.dec c.ce != 1 } else { c with out := true, ce := c.cr }

/-- A counting clock of mode 3 (61 R1360, "each later clock"). -/
def PitCounter.clock3 (c : PitCounter) : PitCounter :=
  if c.extra then { c with extra := false, out := false, ce := evenCount c.cr }
  else
    let n := c.dec (c.dec c.ce)
    if n = 0 then
      if c.cr.getLsbD 0 && c.out then { c with ce := n, extra := true }
      else { c with out := !c.out, ce := evenCount c.cr }
    else { c with ce := n }

/-- A counting clock of modes 4 and 5 (61 R1361, R1362). The clock that ends the strobe leaves CE as it is, as R1366 has it, where
R1361 has CE decrement on each clock and R1362 names no exception (the model's choice, log 48). -/
def PitCounter.clock45 (c : PitCounter) : PitCounter :=
  if c.strobe then { c with out := true, strobe := false }
  else
    let n := c.dec c.ce
    if n = 0 ∧ c.expired = false then { c with ce := n, out := false, strobe := true, expired := true }
    else { c with ce := n }

/-- A clock of a counter that is counting and not paused. -/
def PitCounter.clockMode (c : PitCounter) : PitCounter :=
  match c.mode with
  | .m0 => c.clock01
  | .m1 => c.clock01
  | .m2 => c.clock2
  | .m3 => c.clock3
  | .m4 => c.clock45
  | .m5 => c.clock45

/-- GATE pauses this mode (61 R1363). -/
def PitCounter.gated (c : PitCounter) : Bool :=
  match c.mode with
  | .m0 => true | .m1 => false | .m2 => true | .m3 => true | .m4 => true | .m5 => false

/-- The clocks after the GATE edge has been dealt with: the load clock, or a counting clock. A pause of mode 4 holds a strobe in
progress too, as R1366 has it, against the one clock of R1361 (the model's choice, log 46). -/
def PitCounter.clockNoEdge (c : PitCounter) : PitCounter :=
  if c.loadPending then PitCounter.load { c with loadPending := false }
  else if !c.counting then c
  else if c.gated && !c.gate then c
  else c.clockMode

/-- `pit_tick(i)` (61 R1366). An edge that loads leaves `load_pending` as it is, so a load still pending in mode 2 or 3 loads again
on the next clock, where R1359 and R1360 have the counter count from there (the model's choice, log 49). -/
def PitCounter.clock (c : PitCounter) : PitCounter :=
  if !c.programmed then c
  else if c.gateRise then
    let d := { c with gateRise := false }
    match c.mode, c.countValid with
    | .m1, true => { d.load with out := false }
    | .m5, true => d.load
    | .m2, true => { d.load with out := true }
    | .m3, true => { d.load with out := true }
    | _, _ => d.clockNoEdge
  else c.clockNoEdge

/-- OUT and CE drawn afresh where they are draws (61 R1355). -/
def drawCounter (c : PitCounter) (s : State) : PitCounter × State :=
  if c.free then
    let b := drawBit s
    let w := drawWord b.2
    ({ c with out := b.1, ce := w.1 }, w.2)
  else (c, s)

/-! Wiring (61 R1302, R1366). -/

/-- A PIT state installed: a change of OUT0 reaches IR0 at once, a rise of OUT1 sets `refresh_req`. -/
def State.setPit (s : State) (p : Pit) : State :=
  s.mapDev fun d =>
    { d with pit := p
             pic := if p.c0.out = d.pit.c0.out then d.pic else d.pic.setLine 0 p.c0.out
             refreshReq := d.refreshReq || (p.c1.out && !d.pit.c1.out) }

/-- One clock of the three counters, in order, then that clock's events. -/
def pitClock (s : State) : State :=
  let r0 := drawCounter s.dev.pit.c0.clock s
  let r1 := drawCounter r0.2.dev.pit.c1.clock r0.2
  let r2 := drawCounter r1.2.dev.pit.c2.clock r1.2
  r2.2.setPit { c0 := r0.1, c1 := r1.1, c2 := r2.1 }

/-- k clocks. -/
def pitClocks : Nat → State → State
  | 0, s => s
  | k + 1, s => pitClocks k (pitClock s)

/-- `pit_step(k)` (61 R1366): clocks change nothing before any control word. -/
def pitStep (k : Nat) (s : State) : State :=
  let p := s.dev.pit
  if p.c0.programmed || p.c1.programmed || p.c2.programmed then pitClocks k s else s

/-! Port accesses (61 R1351). -/

/-- Counter i. -/
def Pit.get (p : Pit) (i : BitVec 2) : PitCounter :=
  match i.toNat with
  | 0 => p.c0 | 1 => p.c1 | _ => p.c2

/-- Counter i replaced. -/
def Pit.set (p : Pit) (i : BitVec 2) (c : PitCounter) : Pit :=
  match i.toNat with
  | 0 => { p with c0 := c } | 1 => { p with c1 := c } | _ => { p with c2 := c }

/-- A counter written: its free values drawn, its outputs wired. -/
def State.putCounter (s : State) (i : BitVec 2) (c : PitCounter) : State :=
  let r := drawCounter c s
  r.2.setPit (r.2.dev.pit.set i r.1)

/-- OUT 0x43 (61 R1352, R1353); SC = 11 is ignored (D26). -/
def pitControl (v : Byte) (s : State) : State :=
  let i : BitVec 2 := v.extractLsb' 6 2
  if i = 3 then s else s.putCounter i ((s.dev.pit.get i).control v)

/-- OUT 0x40 + i (61 R1354). -/
def pitWrite (i : BitVec 2) (v : Byte) (s : State) : State := s.putCounter i ((s.dev.pit.get i).writeCount v)

/-- IN 0x40 + i (61 R1364); an unprogrammed counter has no RL to step through and is left as it is (log 21). -/
def pitRead (i : BitVec 2) (s : State) : Byte × State :=
  let c := s.dev.pit.get i
  let t := if c.programmed then s.mapDev fun d => { d with pit := d.pit.set i c.afterRead } else s
  if c.readIsFree then drawByte t else (c.readValue, t)

/-- OUT 0x61: the latch, and GATE2 following its bit 0 (61 R1321, R1356). -/
def ppiWrite (v : Byte) (s : State) : State :=
  let t := s.mapDev fun d => { d with ppiB := v }
  t.setPit { t.dev.pit with c2 := t.dev.pit.c2.setGate (v.getLsbD 0) }

end Sys2Proof.Machine
end

