-- ==== Sys2Proof/Machine/IoPorts.lean ====
section
/-! DEFINITION. IO dispatch (20 R230): which device a port leads to (61 R1301), and the IO bus cycles of IN and OUT. -/

namespace Sys2Proof.Machine

/-- What a port leads to (61 R1301). -/
inductive PortUse where
  | dmaXfer (i : BitVec 3)
  | dmaCommand
  | dmaRequest
  | dmaMask
  | dmaMode
  | dmaClearFf
  | dmaMaster
  | dmaClearMasks
  | dmaWriteMasks
  | pic (a0 : Bool)
  | pitCounter (i : BitVec 2)
  | pitControl
  | ppiB
  | page (c : BitVec 2)
  | nmiMask
  | oracle
  | unclaimed
  deriving DecidableEq, Repr

/-- The port map (61 R1301): the devices in scope at exact ports, the rest of the PPI and `ORACLE_PORTS` as oracles, every
other port unclaimed. -/
def portUse (oraclePorts : List Word) (p : Word) : PortUse :=
  if p < 8 then .dmaXfer (p.setWidth 3)
  else match p.toNat with
    | 0x08 => .dmaCommand
    | 0x09 => .dmaRequest
    | 0x0A => .dmaMask
    | 0x0B => .dmaMode
    | 0x0C => .dmaClearFf
    | 0x0D => .dmaMaster
    | 0x0E => .dmaClearMasks
    | 0x0F => .dmaWriteMasks
    | 0x20 => .pic false
    | 0x21 => .pic true
    | 0x40 => .pitCounter 0
    | 0x41 => .pitCounter 1
    | 0x42 => .pitCounter 2
    | 0x43 => .pitControl
    | 0x60 => .oracle
    | 0x61 => .ppiB
    | 0x62 => .oracle
    | 0x63 => .oracle
    | 0x80 => .page 0
    | 0x81 => .page 2
    | 0x82 => .page 3
    | 0x83 => .page 1
    | 0xA0 => .nmiMask
    | _ => if oraclePorts.contains p then .oracle else .unclaimed

/-- The state with the DMA controller changed. -/
def State.mapDma (f : Dma → Dma) (s : State) : State := s.mapDev fun d => { d with dma := f d.dma }

/-- The state with the PIC changed; its INT output follows (61 R1340). -/
def State.mapPic (f : Pic → Pic) (s : State) : State := s.mapDev fun d => { d with pic := f d.pic }

/-- A byte with no wait states. -/
def plainAnswer (r : Byte × State) : OracleAnswer × State := ({ value := r.1, waits := 0 }, r.2)

/-- A read of a PIC port: a draw before ICW1 (61 R1331, R1343), which leaves the PIC, a poll command pending included, as it is
(R1336 has the next read clear `poll`, R1331 says only that the read is a draw: the model's choice, log 40). -/
def picPortRead (a0 : Bool) (s : State) : Byte × State :=
  if s.dev.pic.init = .uninit then drawByte s
  else ((s.dev.pic.read a0).1, s.mapPic fun p => (p.read a0).2)

/-- The byte a read of a port gives, with its side effects (20 R224, R230); a write-only register gives a draw and changes
nothing (D60). -/
def portRead (p : Word) (s : State) : OracleAnswer × State :=
  match portUse s.params.oraclePorts p with
  | .dmaXfer i => plainAnswer ((s.dev.dma.readXfer i).1, s.mapDma fun d => (d.readXfer i).2)
  | .dmaCommand => plainAnswer (dmaStatus s, s.mapDma Dma.clearTc)
  | .dmaRequest => plainAnswer (drawByte s)
  | .dmaMask => plainAnswer (drawByte s)
  | .dmaMode => plainAnswer (drawByte s)
  | .dmaClearFf => plainAnswer (drawByte s)
  | .dmaMaster => plainAnswer (s.dev.dma.temp, s)
  | .dmaClearMasks => plainAnswer (drawByte s)
  | .dmaWriteMasks => plainAnswer (drawByte s)
  | .pic a0 => plainAnswer (picPortRead a0 s)
  | .pitCounter i => plainAnswer (pitRead i s)
  | .pitControl => plainAnswer (drawByte s)
  | .ppiB => plainAnswer (s.dev.ppiB, s)
  | .page _ => plainAnswer (drawByte s)
  | .nmiMask => plainAnswer (drawByte s)
  | .oracle => oracleRead s
  | .unclaimed => ({ value := s.params.unmappedIoRead, waits := 0 }, s)

/-- The effect of a write of a port (20 R230, 61 R1318: the register takes its value at the bus cycle). -/
def portWrite (p : Word) (v : Byte) (s : State) : State :=
  match portUse s.params.oraclePorts p with
  | .dmaXfer i => s.mapDma fun d => d.writeXfer i v
  | .dmaCommand => s.mapDma fun d => { d with command := v }
  | .dmaRequest => s.mapDma fun d => d.writeRequest v
  | .dmaMask => s.mapDma fun d => d.writeMask v
  | .dmaMode => s.mapDma fun d => d.writeMode v
  | .dmaClearFf => s.mapDma fun d => { d with ff := false }
  | .dmaMaster => s.mapDma Dma.masterClear
  | .dmaClearMasks => s.mapDma (Dma.mapAll fun x => { x with mask := false })
  | .dmaWriteMasks => s.mapDma fun d => d.writeMasks v
  | .pic a0 => s.mapPic fun q => q.write a0 v
  | .pitCounter i => pitWrite i v s
  | .pitControl => pitControl v s
  | .ppiB => ppiWrite v s
  | .page c => s.mapDma fun d => d.writePage c v
  | .nmiMask => s.mapDev fun d => { d with nmiMask := v }
  | .oracle => s
  | .unclaimed => s

/-- `IORead(port, 1)`: one IO bus cycle, the BIU taking its turns around it (20 R230, 21 R330). The cycle latches the port with
address bits 19:16 at 0: no rule says them (the model's choice, log 38). -/
def ioReadByte (p : Word) (s : State) : Byte × State :=
  let r := portRead p ((biuTurn s).openCycle { kind := .ioRead, access := .code, addr := p.setWidth 20, data := none })
  (r.1.value, biuTurn ((r.2.holdData (some r.1.value) r.1.waits).record (.ioRead p r.1.value)))

/-- The wait states of a write of a port: only a device outside the block asks for any (21 R303). -/
def portWriteWaits (p : Word) (s : State) : Nat × State :=
  if portUse s.params.oraclePorts p = .oracle then oracleWrite s else (0, s)

/-- The clock of the data phase of a port's write, in which the device is written (21 R302). -/
def portData (p : Word) (v : Byte) (op : QueueOp) (s : State) : State :=
  let w := portWriteWaits p s
  portWrite p v ((w.2.writeData op w.1).record (.ioWrite p v))

/-- `IOWrite(port, 1, v)`: the cycle is started, the address latched as in a read (log 38), and the EU's own clocks carry it on (21
R309). -/
def ioWriteByte (p : Word) (v : Byte) (s : State) : State :=
  carryWrite (portData p v)
    ((biuTurn s).beginCycle { kind := .ioWrite, access := .code, addr := p.setWidth 20, data := some v })

/-- `IORead(port, 2)`: the port, then the next port (20 R230, D17). -/
def ioReadWord (p : Word) (s : State) : Word × State :=
  let lo := ioReadByte p s
  let hi := ioReadByte (p + 1) lo.2
  (mkWord hi.1 lo.1, hi.2)

/-- `IOWrite(port, 2, v)`. -/
def ioWriteWord (p : Word) (v : Word) (s : State) : State :=
  ioWriteByte (p + 1) (hiByte v) (ioWriteByte p (loByte v) s)

end Sys2Proof.Machine
end

