-- ==== Sys2Proof/Machine/Scheduler.lean ====
section
/-! DEFINITION. The device clock scheduler (61 R1310 to R1318) and the NMI sample (60 R1232). -/

namespace Sys2Proof.Machine

/-- The cycles the CPU step took (31 R510, D43): the environment's next figure, or a free one; at least 1. -/
def takeCycles (s : State) : Nat × State :=
  match s.env.cycles with
  | n :: ns => (max 1 n, s.mapEnv fun e => { e with cycles := ns })
  | [] => (max 1 (Config.stepCycles s.draws), s.bumpDraws)

/-- `sys_ticks(n)` and the carried fraction after it (61 R1312). -/
def sysTicks (f : ClockFactor) (frac n : Nat) : Nat × Nat :=
  match f with
  | .divisor d => (n * d, frac)
  | .multiplier m => ((frac + n) / m, (frac + n) % m)

/-- The PIT clocks of a scheduler step, and the accumulators after it (61 R1311, R1312). -/
def budget (p : Params) (d : Sched) (n : Nat) : Nat × Sched :=
  let t := sysTicks p.clockFactor d.sysFrac n
  let ticks := t.1 + d.extra
  ((d.pitRem + ticks) / Config.ticksPerPitClock,
    { d with
      sysFrac := t.2
      pitRem := (d.pitRem + ticks) % Config.ticksPerPitClock
      usFrac := (d.usFrac + ticks * 10 ^ 6) % p.systemCrystalHz
      extra := 0 })

/-- `pic_step()`: the environment's IR1 to IR7 are sampled and all levels sensed (61 R1302, R1339). -/
def picStep (s : State) : State :=
  s.mapPic fun p => p.setLines ((s.env.ir &&& 0xFE) ||| (p.ir &&& 0x01))

/-- `ppi_step()`: GATE2 follows `ppi_b` bit 0 (61 R1311, R1321). -/
def ppiStep (s : State) : State :=
  s.setPit { s.dev.pit with c2 := s.dev.pit.c2.setGate (s.dev.ppiB.getLsbD 0) }

/-- `hint()` (61 R1316). -/
def imminentHint (s : State) : Bool :=
  s.dev.pit.c0.counting && decide (s.dev.pit.c0.ce.toNat ≤ s.params.imminentThreshold)

/-- The CPU's NMI input (60 R1214). -/
def nmiInput (s : State) : Bool := s.env.nmiSource && s.dev.nmiMask.getLsbD 7

/-- The NMI sample (60 R1232). -/
def sampleNmi (s : State) : State :=
  let i := nmiInput s
  s.mapCpu fun c => { c with nmiLatch := c.nmiLatch || (i && !c.nmiPrev), nmiPrev := i }

/-- `scheduler_step` (61 R1311): the budget, then the devices in their fixed order, the hint and the NMI sample. The NMI
mask latch has no time-dependent behaviour (61 R1320). -/
def schedulerStep (s : State) : State :=
  let c := takeCycles s
  let b := budget s.params s.dev.sched c.1
  let s1 := c.2.mapDev fun d => { d with sched := b.2 }
  let s2 := dmaStep (pitStep b.1 (ppiStep (picStep s1)))
  sampleNmi (s2.mapDev fun d => { d with sched := { d.sched with imminent := imminentHint s2 } })

/-- What follows a CPU step: the scheduler step, unless the instruction's prefixes go on in the next step (31 R500; log 13). -/
def afterCpuStep (s : State) : State := if s.cpu.decoding then s else schedulerStep s

end Sys2Proof.Machine
end

