-- ==== Sys2Proof/Machine/Ops.lean ====
section
/-! DEFINITION. The named operations the meanings share: segment-addressed accesses, the stack, jumps, taking an exception
and returning from one (00 R12, R13, 60 R1220, 44 R1021). -/

namespace Sys2Proof.Machine

/-! Segment-addressed accesses (00 R12). -/

/-- `SegRead(seg, off, 1)`. -/
def segRead8 (r : Sreg) (off : Word) (s : State) : Byte × State := readByteAt (accessOf r) (s.seg r) off s

/-- `SegRead(seg, off, 2)`. -/
def segRead16 (r : Sreg) (off : Word) (s : State) : Word × State := readWordAt (accessOf r) (s.seg r) off s

/-- `SegWrite(seg, off, 1, v)`. -/
def segWrite8 (r : Sreg) (off : Word) (v : Byte) (s : State) : State := writeByteAt (accessOf r) (s.seg r) off v s

/-- `SegWrite(seg, off, 2, v)`. -/
def segWrite16 (r : Sreg) (off : Word) (v : Word) (s : State) : State := writeWordAt (accessOf r) (s.seg r) off v s

/-- The segment of an overridable access with default r (30 R422, 20 R204). -/
def State.segOr (s : State) (r : Sreg) : Sreg := s.cpu.pfx.segOverride.getD r

/-! The stack. -/

/-- `Push(v)`: SP goes down by 2, then the word is written at SS:SP (00 R12). -/
def push (v : Word) (s : State) : State :=
  let t := s.setReg16 .sp (s.reg16 .sp - 2)
  segWrite16 .ss (t.reg16 .sp) v t

/-- `Pop()`: the word at SS:SP, then SP goes up by 2 (00 R12). -/
def pop (s : State) : Word × State :=
  let r := segRead16 .ss (s.reg16 .sp) s
  (r.1, r.2.setReg16 .sp (r.2.reg16 .sp + 2))

/-! Transfers. -/

/-- `JumpNear(t)`: IP, the flush, and fetching resumed (00 R13, 21 R327, R329). -/
def jumpNear (t : Word) (s : State) : State := resumeFetch (flushQueue (s.setIp t))

/-- `JumpFar(s, o)` (00 R13). -/
def jumpFar (sel off : Word) (s : State) : State :=
  resumeFetch (flushQueue ((s.setSeg .cs sel).setIp off))

/-- A relative target (30 R425): IP is the offset after the instruction when its meaning runs. -/
def State.relative (s : State) (rel : Byte) : Word := s.cpu.ip + sext16 rel

/-- `Push(v)` with a transfer right after it: the write of the word's high byte holds the EU until its T1 only, so that the
transfer's flush may fall in its T2 (21 R309, R327, R329). -/
def pushJump (v : Word) (jump : Cpu → Cpu) (s : State) : State :=
  let t := s.setReg16 .sp (s.reg16 .sp - 2)
  let a := lin (t.seg .ss) (t.reg16 .sp + 1)
  let c := takeEuClocks (beginWrite .stack a (hiByte v) (biuTurn (segWrite8 .ss (t.reg16 .sp) (loByte v) t)))
  resumeFetch (jumpInWrite .stack a (hiByte v) jump c.1 c.2)

/-! Taking an exception, and returning from one. -/

/-- The word at an offset of segment 0x0000: the vector table is read by ordinary memory reads, addressed by no segment
register (60 R1203, 20 R204; access type code, log 15). -/
def vectorRead (off : Word) (s : State) : Word × State := readWordAt .code 0 off s

/-- `enter(n, ret)`, used by every cause (60 R1220): FLAGS, CS and the return offset are pushed, IF and TF cleared after the
FLAGS push, and CS:IP loaded from the vector table. -/
def enter (n : Byte) (ret : Word) (s : State) : State :=
  let s1 := push s.cpu.flags.image (suspendFetch s)
  let s2 := s1.mapFlags fun f => { f with ifl := false, tf := false }
  let s3 := push ret (push (s2.seg .cs) s2)
  let o := vectorRead (4 * zext16 n) s3
  let sel := vectorRead (4 * zext16 n + 2) o.2
  jumpFar sel.1 o.1 sel.2

/-- The return from an interrupt (44 R1021): IP, CS and FLAGS are popped, the reverse of `enter`. -/
def interruptReturn (s : State) : State :=
  let o := pop (suspendFetch s)
  let sel := pop o.2
  let f := pop sel.2
  jumpFar sel.1 o.1 (f.2.setFlags (flagsOfWord f.1))

/-! Undefined flags. -/

/-- All six arithmetic flags drawn (31 R507). -/
def drawSixFlags (s : State) : State :=
  let c := drawBit s
  let p := drawBit c.2
  let a := drawBit p.2
  let z := drawBit a.2
  let sg := drawBit z.2
  let o := drawBit sg.2
  o.2.mapFlags fun f => { f with cf := c.1, pf := p.1, af := a.1, zf := z.1, sf := sg.1, ovf := o.1 }

/-- `divide_error()` (41 R724, 60 R1210): the six flags are draws, and vector 0 is entered with the return offset that
`DIV_ERROR_RETURN` names. -/
def divideError (s : State) : State :=
  let t := drawSixFlags s
  enter 0 (match t.params.divErrorReturn with | .next => t.cpu.ip | .faulting => t.cpu.ipStart) t

/-! Outcomes shared by refused and alias rows (30 R456, R457). -/

/-- The linear address of the instruction, that of its first prefix or opcode byte (30 R404, 10 R113). -/
def State.instrAddr (s : State) : LinAddr := lin s.cpu.segs.cs s.cpu.ipStart

/-- The refusal of a form the spec has no meaning for (30 R456). -/
def refuseForm (opcode : Byte) (s : State) : Host.Outcome State Fault Refusal :=
  .refused (.unmodelledForm s.instrAddr opcode)

/-- An undocumented alias: it executes under `UNDOC_MODE = alias` and is refused otherwise (30 R455, R457). -/
def aliasOf (opcode : Byte) (s : State) (t : State) : Host.Outcome State Fault Refusal :=
  match s.params.undocMode with
  | .asAlias => .next t
  | .refuse => .refused (.undocumentedOpcode s.instrAddr opcode)

end Sys2Proof.Machine
end

