-- ==== Sys2Proof/Machine/Flags.lean ====
section
/-! DEFINITION. Every flag computation of the spec, generic in the operand width w where the spec is (41 R700 to R703,
42 R800 to R818), with the undefined flags as draws. -/

namespace Sys2Proof.Machine

variable {w : Nat}

/-! Sign, zero, parity; add and subtract. -/

/-- `SZP(r)` (41 R700). -/
def Flags.szp (f : Flags) (r : BitVec w) : Flags :=
  { f with sf := r.msb, zf := r == 0, pf := evenParity (r.setWidth 8) }

/-- The carry out of bit 3, or the borrow into it (41 R701, R702). -/
def auxCarry (a b r : BitVec w) : Bool := (a ^^^ b ^^^ r).getLsbD 4

/-- The result of `AddFlags(a, b, c)` (41 R701). -/
def addResult (a b : BitVec w) (c : Bool) : BitVec w := BitVec.ofNat w (a.toNat + b.toNat + bitNat c)

/-- The flags of `AddFlags(a, b, c)` (41 R701). -/
def addFlags (a b : BitVec w) (c : Bool) (f : Flags) : Flags :=
  let r := addResult a b c
  { f.szp r with
    cf := decide (2 ^ w ≤ a.toNat + b.toNat + bitNat c)
    af := auxCarry a b r
    ovf := ((a ^^^ r) &&& (b ^^^ r)).msb }

/-- The result of `SubFlags(a, b, c)` (41 R702). -/
def subResult (a b : BitVec w) (c : Bool) : BitVec w := a - b - BitVec.ofNat w (bitNat c)

/-- The flags of `SubFlags(a, b, c)` (41 R702). -/
def subFlags (a b : BitVec w) (c : Bool) (f : Flags) : Flags :=
  let r := subResult a b c
  { f.szp r with
    cf := decide (a.toNat < b.toNat + bitNat c)
    af := auxCarry a b r
    ovf := ((a ^^^ b) &&& (a ^^^ r)).msb }

/-- `LogicFlags(r)` with AF given (42 R800). -/
def logicFlags (r : BitVec w) (af : Bool) (f : Flags) : Flags :=
  { f.szp r with cf := false, ovf := false, af := af }

/-- The state after `LogicFlags(r)`: AF is a draw. -/
def setLogicFlags (r : BitVec w) (s : State) : State :=
  let d := drawBit s
  d.2.mapFlags (logicFlags r d.1)

/-! The ALU (41 R703). -/

/-- The result of an ALU operation, with the CF before it (41 R705 to R709, 42 R801 to R803); CMP's is not written. -/
def aluResult (op : AluOp) (a b : BitVec w) (cf : Bool) : BitVec w :=
  match op with
  | .add => addResult a b false
  | .or => a ||| b
  | .adc => addResult a b cf
  | .sbb => subResult a b cf
  | .and => a &&& b
  | .sub => subResult a b false
  | .xor => a ^^^ b
  | .cmp => subResult a b false

/-- The state after the flags of an ALU operation (41 R705 to R709, 42 R800 to R803). -/
def aluFlags (op : AluOp) (a b : BitVec w) (s : State) : State :=
  match op with
  | .add => s.mapFlags (addFlags a b false)
  | .or => setLogicFlags (a ||| b) s
  | .adc => s.mapFlags fun f => addFlags a b f.cf f
  | .sbb => s.mapFlags fun f => subFlags a b f.cf f
  | .and => setLogicFlags (a &&& b) s
  | .sub => s.mapFlags (subFlags a b false)
  | .xor => setLogicFlags (a ^^^ b) s
  | .cmp => s.mapFlags (subFlags a b false)

/-- Result and state of an ALU operation. -/
def alu (op : AluOp) (a b : BitVec w) (s : State) : BitVec w × State := (aluResult op a b s.cpu.flags.cf, aluFlags op a b s)

/-- INC: the flags of an addition of 1 but CF, which is kept (41 R710). -/
def incFlags (a : BitVec w) (f : Flags) : Flags := { addFlags a 1 false f with cf := f.cf }

/-- DEC: the flags of a subtraction of 1 but CF, which is kept (41 R712). -/
def decFlags (a : BitVec w) (f : Flags) : Flags := { subFlags a 1 false f with cf := f.cf }

/-! Shifts and rotates (42 R810 to R817). -/

/-- One step of a shift or rotate: the value and CF after it. -/
def shiftStep (op : ShiftOp) (x : BitVec w) (cf : Bool) : BitVec w × Bool :=
  match op with
  | .rol => ((x <<< 1) ||| BitVec.ofNat w (bitNat x.msb), x.msb)
  | .ror => ((x >>> 1) ||| (BitVec.ofNat w (bitNat (x.getLsbD 0)) <<< (w - 1)), x.getLsbD 0)
  | .rcl => ((x <<< 1) ||| BitVec.ofNat w (bitNat cf), x.msb)
  | .rcr => ((x >>> 1) ||| (BitVec.ofNat w (bitNat cf) <<< (w - 1)), x.getLsbD 0)
  | .shl => (x <<< 1, x.msb)
  | .shr => (x >>> 1, x.getLsbD 0)
  | .sar => ((x >>> 1) ||| (BitVec.ofNat w (bitNat x.msb) <<< (w - 1)), x.getLsbD 0)

/-- n steps, in order (42 R810: the count is not masked). -/
def shiftSteps (op : ShiftOp) : Nat → BitVec w → Bool → BitVec w × Bool
  | 0, x, cf => (x, cf)
  | n + 1, x, cf => shiftSteps op n (shiftStep op x cf).1 (shiftStep op x cf).2

/-- OF for a count of 1: from the operand x, the result r and the CF after it (42 R811 to R817). -/
def shiftOverflow (op : ShiftOp) (x r : BitVec w) (cf : Bool) : Bool :=
  match op with
  | .rol => Bool.xor r.msb cf
  | .ror => Bool.xor (r.getLsbD (w - 1)) (r.getLsbD (w - 2))
  | .rcl => Bool.xor r.msb cf
  | .rcr => Bool.xor (r.getLsbD (w - 1)) (r.getLsbD (w - 2))
  | .shl => Bool.xor r.msb cf
  | .shr => x.msb
  | .sar => false

/-- The operation is a shift: it also writes SF, ZF, PF, and leaves AF undefined (42 R815 to R817). -/
def isShiftOp : ShiftOp → Bool
  | .rol => false | .ror => false | .rcl => false | .rcr => false | .shl => true | .shr => true | .sar => true

/-- The flags of a shift or rotate of x by a count that is not 0, with the free values for AF and OF (42 R810). -/
def shiftFlags (op : ShiftOp) (count : Nat) (x : BitVec w) (af ovf : Bool) (f : Flags) : Flags :=
  let r := shiftSteps op count x f.cf
  let g := if isShiftOp op then { f.szp r.1 with af := af } else f
  { g with cf := r.2, ovf := if count = 1 then shiftOverflow op x r.1 r.2 else ovf }

/-- Result and state of a shift or rotate by a count that is not 0: AF and OF are drawn where they are undefined. -/
def shift (op : ShiftOp) (count : Nat) (x : BitVec w) (s : State) : BitVec w × State :=
  let a := drawBit s
  let o := drawBit a.2
  ((shiftSteps op count x s.cpu.flags.cf).1, o.2.mapFlags (shiftFlags op count x a.1 o.1))

/-- SETMO's flags: CF = OF = AF = 0 and SZP of all ones (42 R818). -/
def setmoFlags (r : BitVec w) (f : Flags) : Flags := logicFlags r false f

/-! Multiply (41 R720, R721). -/

/-- CF = OF = v, and SF, ZF, AF, PF drawn. -/
def setMulFlags (v : Bool) (s : State) : State :=
  let sg := drawBit s
  let z := drawBit sg.2
  let a := drawBit z.2
  let p := drawBit a.2
  p.2.mapFlags fun f => { f with cf := v, ovf := v, sf := sg.1, zf := z.1, af := a.1, pf := p.1 }

/-! Jump conditions (44 R1003). -/

/-- `cond(cc)`. -/
def cond (cc : BitVec 4) (f : Flags) : Bool :=
  match cc.toNat with
  | 0x0 => f.ovf
  | 0x1 => !f.ovf
  | 0x2 => f.cf
  | 0x3 => !f.cf
  | 0x4 => f.zf
  | 0x5 => !f.zf
  | 0x6 => f.cf || f.zf
  | 0x7 => !f.cf && !f.zf
  | 0x8 => f.sf
  | 0x9 => !f.sf
  | 0xA => f.pf
  | 0xB => !f.pf
  | 0xC => f.sf != f.ovf
  | 0xD => f.sf == f.ovf
  | 0xE => f.zf || f.sf != f.ovf
  | _ => !f.zf && f.sf == f.ovf

end Sys2Proof.Machine
end

