-- ==== Sys2Proof/Machine/Operands.lean ====
section
/-! DEFINITION. Operand forms (30 R420 to R427): effective addresses, and reading and writing r/m operands. An operand is
first resolved to a location, with the register values at the start of the instruction's execution (30 R423). -/

namespace Sys2Proof.Machine

/-- `base + index` of an addressing mode (30 R421). -/
def baseValue (b : Base) (s : State) : Word :=
  match b with
  | .bxSi => s.reg16 .bx + s.reg16 .si
  | .bxDi => s.reg16 .bx + s.reg16 .di
  | .bpSi => s.reg16 .bp + s.reg16 .si
  | .bpDi => s.reg16 .bp + s.reg16 .di
  | .si => s.reg16 .si
  | .di => s.reg16 .di
  | .bp => s.reg16 .bp
  | .bx => s.reg16 .bx

/-- The default segment: SS for any form referencing BP, else DS (30 R421, R422). -/
def baseSegment : Base → Sreg
  | .bxSi => .ds | .bxDi => .ds | .bpSi => .ss | .bpDi => .ss | .si => .ds | .di => .ds | .bp => .ss | .bx => .ds

/-- `ea` (30 R421). -/
def effAddr (m : Mem) (s : State) : Word :=
  match m with
  | .base b => baseValue b s
  | .baseD8 b d => baseValue b s + sext16 d
  | .baseD16 b d => baseValue b s + d
  | .direct d => d

/-- The default segment of a memory operand (30 R421). -/
def defaultSegment : Mem → Sreg
  | .base b => baseSegment b
  | .baseD8 b _ => baseSegment b
  | .baseD16 b _ => baseSegment b
  | .direct _ => .ds

/-- `seg_ea`: the override if there is one, else the default segment (30 R422). -/
def effSeg (m : Mem) (s : State) : Sreg := s.segOr (defaultSegment m)

/-- Where a byte operand stands. -/
inductive Loc8 where
  | reg (r : Reg8)
  | mem (sr : Sreg) (off : Word)
  deriving DecidableEq, Repr

/-- Where a word operand stands. -/
inductive Loc16 where
  | reg (r : Reg16)
  | mem (sr : Sreg) (off : Word)
  deriving DecidableEq, Repr

/-- The location of a byte r/m operand (30 R420). -/
def locate8 (e : RM8) (s : State) : Loc8 :=
  match e with
  | .reg r => .reg r
  | .mem m => .mem (effSeg m s) (effAddr m s)

/-- The location of a word r/m operand (30 R420). -/
def locate16 (e : RM16) (s : State) : Loc16 :=
  match e with
  | .reg r => .reg r
  | .mem m => .mem (effSeg m s) (effAddr m s)

/-- `read(E)` at byte width (00 R15). -/
def readLoc8 (l : Loc8) (s : State) : Byte × State :=
  match l with
  | .reg r => (s.reg8 r, s)
  | .mem sr off => segRead8 sr off s

/-- `read_w(E)` (00 R15). -/
def readLoc16 (l : Loc16) (s : State) : Word × State :=
  match l with
  | .reg r => (s.reg16 r, s)
  | .mem sr off => segRead16 sr off s

/-- `write(E, v)` at byte width (00 R15). -/
def writeLoc8 (l : Loc8) (v : Byte) (s : State) : State :=
  match l with
  | .reg r => s.setReg8 r v
  | .mem sr off => segWrite8 sr off v s

/-- `write_w(E, v)` (00 R15). -/
def writeLoc16 (l : Loc16) (v : Word) (s : State) : State :=
  match l with
  | .reg r => s.setReg16 r v
  | .mem sr off => segWrite16 sr off v s

/-- `read(E)` of a byte r/m operand. -/
def readRM8 (e : RM8) (s : State) : Byte × State := readLoc8 (locate8 e s) s

/-- `read_w(E)` of a word r/m operand. -/
def readRM16 (e : RM16) (s : State) : Word × State := readLoc16 (locate16 e s) s

/-- `write(E, v)` of a byte r/m operand. -/
def writeRM8 (e : RM8) (v : Byte) (s : State) : State := writeLoc8 (locate8 e s) v s

/-- `write_w(E, v)` of a word r/m operand. -/
def writeRM16 (e : RM16) (v : Word) (s : State) : State := writeLoc16 (locate16 e s) v s

/-- A far pointer in memory: the offset word, then the segment word two offsets on (30 R426). -/
def readFarPtr (m : Mem) (s : State) : (Word × Word) × State :=
  let o := segRead16 (effSeg m s) (effAddr m s) s
  let g := segRead16 (effSeg m s) (effAddr m s + 2) o.2
  ((o.1, g.1), g.2)

/-! Read-modify-write frames (31 R505): the operand is read once and written once. -/

/-- A byte operand changed by f, which also says what state the write starts from. -/
def modifyRM8 (e : RM8) (f : Byte → State → Byte × State) (s : State) : State :=
  let l := locate8 e s
  let a := readLoc8 l s
  let r := f a.1 a.2
  writeLoc8 l r.1 r.2

/-- A word operand changed by f. -/
def modifyRM16 (e : RM16) (f : Word → State → Word × State) (s : State) : State :=
  let l := locate16 e s
  let a := readLoc16 l s
  let r := f a.1 a.2
  writeLoc16 l r.1 r.2

end Sys2Proof.Machine
end

