-- ==== Sys2Proof/Machine/ControlTransfer.lean ====
section
/-! DEFINITION. Meanings of the control transfer instructions (44 R1000 to R1022). IP is `IP_next` when a meaning runs. Fetching is
suspended from the decision to transfer until the flush (21 R329, log 32). -/

namespace Sys2Proof.Machine

/-! Shared forms. -/

/-- A conditional short jump; not taken, the queue keeps its bytes (R1003). -/
def jumpIf (b : Bool) (rel : Byte) (s : State) : State := if b then jumpNear (s.relative rel) s else s

/-- A near call of an offset (R1006, R1008). -/
def callNear (t : Word) (s : State) : State := pushJump s.cpu.ip (fun c => { c with ip := t }) (suspendFetch s)

/-- A far call: CS, then the return offset, are pushed (R1007, R1009). -/
def callFar (sel off : Word) (s : State) : State :=
  pushJump s.cpu.ip (fun c => { c with segs := c.segs.set .cs sel, ip := off }) (push (s.seg .cs) (suspendFetch s))

/-- SP moved up by an immediate (R1011, R1013). -/
def releaseStack (n : Word) (s : State) : State := s.setReg16 .sp (s.reg16 .sp + n)

/-- A near return releasing n bytes (R1010, R1011). -/
def retNear (n : Word) (s : State) : State :=
  let t := pop (suspendFetch s)
  jumpNear t.1 (releaseStack n t.2)

/-- A far return releasing n bytes (R1012, R1013). -/
def retFar (n : Word) (s : State) : State :=
  let o := pop (suspendFetch s)
  let sel := pop o.2
  jumpFar sel.1 o.1 (releaseStack n sel.2)

/-- CX decremented (R1014). -/
def decCx (s : State) : State := s.setReg16 .cx (s.reg16 .cx - 1)

/-- A loop instruction: CX goes down, and the jump is taken while CX is not 0 and c holds (R1014 to R1016). -/
def loopIf (c : Bool) (rel : Byte) (s : State) : State :=
  let t := decCx s
  jumpIf (t.reg16 .cx != 0 && c) rel t

/-! Meanings. -/

/-- `JMP rel8` (R1000). -/
def execJmpRel8 (rel : Byte) (s : State) : Host.Outcome State Fault Refusal :=
  .next (jumpNear (s.relative rel) s)

/-- `JMP rel16` (R1001). -/
def execJmpRel16 (rel : Word) (s : State) : Host.Outcome State Fault Refusal :=
  .next (jumpNear (s.cpu.ip + rel) s)

/-- `JMP ptr16:16` (R1002). -/
def execJmpPtr (off : Word) (seg : Word) (s : State) : Host.Outcome State Fault Refusal :=
  .next (jumpFar seg off s)

/-- `JO rel8` (R1003). -/
def execJo (rel : Byte) (s : State) : Host.Outcome State Fault Refusal :=
  .next (jumpIf (cond 0x0 s.cpu.flags) rel s)

/-- `JNO rel8` (R1003). -/
def execJno (rel : Byte) (s : State) : Host.Outcome State Fault Refusal :=
  .next (jumpIf (cond 0x1 s.cpu.flags) rel s)

/-- `JB rel8` (R1003). -/
def execJb (rel : Byte) (s : State) : Host.Outcome State Fault Refusal :=
  .next (jumpIf (cond 0x2 s.cpu.flags) rel s)

/-- `JNB rel8` (R1003). -/
def execJnb (rel : Byte) (s : State) : Host.Outcome State Fault Refusal :=
  .next (jumpIf (cond 0x3 s.cpu.flags) rel s)

/-- `JZ rel8` (R1003). -/
def execJz (rel : Byte) (s : State) : Host.Outcome State Fault Refusal :=
  .next (jumpIf (cond 0x4 s.cpu.flags) rel s)

/-- `JNZ rel8` (R1003). -/
def execJnz (rel : Byte) (s : State) : Host.Outcome State Fault Refusal :=
  .next (jumpIf (cond 0x5 s.cpu.flags) rel s)

/-- `JBE rel8` (R1003). -/
def execJbe (rel : Byte) (s : State) : Host.Outcome State Fault Refusal :=
  .next (jumpIf (cond 0x6 s.cpu.flags) rel s)

/-- `JA rel8` (R1003). -/
def execJa (rel : Byte) (s : State) : Host.Outcome State Fault Refusal :=
  .next (jumpIf (cond 0x7 s.cpu.flags) rel s)

/-- `JS rel8` (R1003). -/
def execJs (rel : Byte) (s : State) : Host.Outcome State Fault Refusal :=
  .next (jumpIf (cond 0x8 s.cpu.flags) rel s)

/-- `JNS rel8` (R1003). -/
def execJns (rel : Byte) (s : State) : Host.Outcome State Fault Refusal :=
  .next (jumpIf (cond 0x9 s.cpu.flags) rel s)

/-- `JP rel8` (R1003). -/
def execJp (rel : Byte) (s : State) : Host.Outcome State Fault Refusal :=
  .next (jumpIf (cond 0xA s.cpu.flags) rel s)

/-- `JNP rel8` (R1003). -/
def execJnp (rel : Byte) (s : State) : Host.Outcome State Fault Refusal :=
  .next (jumpIf (cond 0xB s.cpu.flags) rel s)

/-- `JL rel8` (R1003). -/
def execJl (rel : Byte) (s : State) : Host.Outcome State Fault Refusal :=
  .next (jumpIf (cond 0xC s.cpu.flags) rel s)

/-- `JGE rel8` (R1003). -/
def execJge (rel : Byte) (s : State) : Host.Outcome State Fault Refusal :=
  .next (jumpIf (cond 0xD s.cpu.flags) rel s)

/-- `JLE rel8` (R1003). -/
def execJle (rel : Byte) (s : State) : Host.Outcome State Fault Refusal :=
  .next (jumpIf (cond 0xE s.cpu.flags) rel s)

/-- `JG rel8` (R1003). -/
def execJg (rel : Byte) (s : State) : Host.Outcome State Fault Refusal :=
  .next (jumpIf (cond 0xF s.cpu.flags) rel s)

/-- `Jcc rel8 (alias 60-6F of 70-7F)` (R455). -/
def execJccAlias (cc : BitVec 4) (rel : Byte) (s : State) : Host.Outcome State Fault Refusal :=
  aliasOf (0x60 + cc.setWidth 8) s (jumpIf (cond cc s.cpu.flags) rel s)

/-- `JMP Ev` (R1004). -/
def execJmpEv (e : RM16) (s : State) : Host.Outcome State Fault Refusal :=
  let t := readRM16 e s
  .next (jumpNear t.1 t.2)

/-- `JMP Mp` (R1005). -/
def execJmpMp (m : Mem) (s : State) : Host.Outcome State Fault Refusal :=
  let p := readFarPtr m s
  .next (jumpFar p.1.2 p.1.1 p.2)

/-- `CALL rel16` (R1006). -/
def execCallRel16 (rel : Word) (s : State) : Host.Outcome State Fault Refusal :=
  .next (callNear (s.cpu.ip + rel) s)

/-- `CALL ptr16:16` (R1007). -/
def execCallPtr (off : Word) (seg : Word) (s : State) : Host.Outcome State Fault Refusal :=
  .next (callFar seg off s)

/-- `CALL Ev` (R1008). -/
def execCallEv (e : RM16) (s : State) : Host.Outcome State Fault Refusal :=
  let t := readRM16 e s
  .next (callNear t.1 t.2)

/-- `CALL Mp` (R1009). -/
def execCallMp (m : Mem) (s : State) : Host.Outcome State Fault Refusal :=
  let p := readFarPtr m s
  .next (callFar p.1.2 p.1.1 p.2)

/-- `RET` (R1010). -/
def execRet (s : State) : Host.Outcome State Fault Refusal :=
  .next (retNear 0 s)

/-- `RET Iw` (R1011). -/
def execRetIw (i : Word) (s : State) : Host.Outcome State Fault Refusal :=
  .next (retNear i s)

/-- `RET (alias of C3)` (R455). -/
def execRetAlias (s : State) : Host.Outcome State Fault Refusal :=
  aliasOf 0xC1 s (retNear 0 s)

/-- `RET Iw (alias of C2)` (R455). -/
def execRetIwAlias (i : Word) (s : State) : Host.Outcome State Fault Refusal :=
  aliasOf 0xC0 s (retNear i s)

/-- `RETF` (R1012). -/
def execRetf (s : State) : Host.Outcome State Fault Refusal :=
  .next (retFar 0 s)

/-- `RETF Iw` (R1013). -/
def execRetfIw (i : Word) (s : State) : Host.Outcome State Fault Refusal :=
  .next (retFar i s)

/-- `RETF (alias of CB)` (R455). -/
def execRetfAlias (s : State) : Host.Outcome State Fault Refusal :=
  aliasOf 0xC9 s (retFar 0 s)

/-- `RETF Iw (alias of CA)` (R455). -/
def execRetfIwAlias (i : Word) (s : State) : Host.Outcome State Fault Refusal :=
  aliasOf 0xC8 s (retFar i s)

/-- `LOOP rel8` (R1014). -/
def execLoop (rel : Byte) (s : State) : Host.Outcome State Fault Refusal :=
  .next (loopIf true rel s)

/-- `LOOPZ rel8` (R1015). -/
def execLoopz (rel : Byte) (s : State) : Host.Outcome State Fault Refusal :=
  .next (loopIf s.cpu.flags.zf rel s)

/-- `LOOPNZ rel8` (R1016). -/
def execLoopnz (rel : Byte) (s : State) : Host.Outcome State Fault Refusal :=
  .next (loopIf (!s.cpu.flags.zf) rel s)

/-- `JCXZ rel8` (R1017). -/
def execJcxz (rel : Byte) (s : State) : Host.Outcome State Fault Refusal :=
  .next (jumpIf (s.reg16 .cx == 0) rel s)

/-- `INT Ib` (R1018). -/
def execIntIb (i : Byte) (s : State) : Host.Outcome State Fault Refusal :=
  .next (enter i s.cpu.ip s)

/-- `INT 3` (R1019). -/
def execInt3 (s : State) : Host.Outcome State Fault Refusal :=
  .next (enter 3 s.cpu.ip s)

/-- `INTO` (R1020). -/
def execInto (s : State) : Host.Outcome State Fault Refusal :=
  .next (if s.cpu.flags.ovf then enter 4 s.cpu.ip s else s)

/-- `IRET` (R1021). -/
def execIret (s : State) : Host.Outcome State Fault Refusal :=
  .next (interruptReturn s)

end Sys2Proof.Machine
end

