-- ==== Sys2Proof/Machine/DataTransfer.lean ====
section
/-! DEFINITION. Meanings of the data transfer instructions (40 R601 to R631). -/

namespace Sys2Proof.Machine

/-! Shared forms. -/

/-- MOV G, E at byte width (R601). -/
def loadReg8 (g : Reg8) (e : RM8) (s : State) : State :=
  let r := readRM8 e s
  r.2.setReg8 g r.1

/-- MOV G, E at word width (R601). -/
def loadReg16 (g : Reg16) (e : RM16) (s : State) : State :=
  let r := readRM16 e s
  r.2.setReg16 g r.1

/-- MOV S, E: the segment register takes the word; the inhibit is `endOfInstruction`'s (R603). -/
def loadSeg (sr : Sreg) (e : RM16) (s : State) : State :=
  let r := readRM16 e s
  r.2.setSeg sr r.1

/-- PUSH of a register: SP itself is pushed already decremented (R610). -/
def pushReg (r : Reg16) (s : State) : State :=
  push (if r = .sp then s.reg16 .sp - 2 else s.reg16 r) s

/-- PUSH E (R612): a register operand as PUSH r16, a memory operand read first. -/
def pushOperand (e : RM16) (s : State) : State :=
  match e with
  | .reg r => pushReg r s
  | .mem m =>
    let v := readRM16 (.mem m) s
    push v.1 v.2

/-- POP r16: the popped word is written after SP has moved (R613). -/
def popReg (r : Reg16) (s : State) : State :=
  let v := pop s
  v.2.setReg16 r v.1

/-- POP E: the stack word is read and SP moved before the operand is written (R615). -/
def popOperand (e : RM16) (s : State) : State :=
  let v := pop s
  writeRM16 e v.1 v.2

/-- POP S (R614). -/
def popSeg (sr : Sreg) (s : State) : State :=
  let v := pop s
  v.2.setSeg sr v.1

/-- XCHG E, G at byte width (R620): the operand's place is that of the start of the instruction. -/
def exchange8 (e : RM8) (g : Reg8) (s : State) : State :=
  let l := locate8 e s
  let a := readLoc8 l s
  writeLoc8 l (a.2.reg8 g) (a.2.setReg8 g a.1)

/-- XCHG E, G at word width (R620). -/
def exchange16 (e : RM16) (g : Reg16) (s : State) : State :=
  let l := locate16 e s
  let a := readLoc16 l s
  writeLoc16 l (a.2.reg16 g) (a.2.setReg16 g a.1)

/-- IN AL, port (R622). -/
def inByte (p : Word) (s : State) : State :=
  let r := ioReadByte p s
  r.2.setReg8 .al r.1

/-- IN AX, port (R622). -/
def inWord (p : Word) (s : State) : State :=
  let r := ioReadWord p s
  r.2.setReg16 .ax r.1

/-- LDS and LES: the offset word to a general register, the segment word to a segment register (R628, R629). -/
def loadFarPtr (sr : Sreg) (g : Reg16) (m : Mem) (s : State) : State :=
  let r := readFarPtr m s
  (r.2.setReg16 g r.1.1).setSeg sr r.1.2

/-! Meanings. -/

/-- `MOV Eb, Gb` (R601). -/
def execMovEbGb (e : RM8) (g : Reg8) (s : State) : Host.Outcome State Fault Refusal :=
  .next (writeRM8 e (s.reg8 g) s)

/-- `MOV Ev, Gv` (R601). -/
def execMovEvGv (e : RM16) (g : Reg16) (s : State) : Host.Outcome State Fault Refusal :=
  .next (writeRM16 e (s.reg16 g) s)

/-- `MOV Gb, Eb` (R601). -/
def execMovGbEb (g : Reg8) (e : RM8) (s : State) : Host.Outcome State Fault Refusal :=
  .next (loadReg8 g e s)

/-- `MOV Gv, Ev` (R601). -/
def execMovGvEv (g : Reg16) (e : RM16) (s : State) : Host.Outcome State Fault Refusal :=
  .next (loadReg16 g e s)

/-- `MOV Ew, Sw` (R602). -/
def execMovEwSw (e : RM16) (sr : Sreg) (s : State) : Host.Outcome State Fault Refusal :=
  .next (writeRM16 e (s.seg sr) s)

/-- `MOV Ew, Sw (alias reg 4-7)` (R455). -/
def execMovEwSwAlias (e : RM16) (sr : Sreg) (s : State) : Host.Outcome State Fault Refusal :=
  aliasOf 0x8C s (writeRM16 e (s.seg sr) s)

/-- `MOV ES, Ew` (R603). -/
def execMovEsEw (e : RM16) (s : State) : Host.Outcome State Fault Refusal :=
  .next (loadSeg .es e s)

/-- `MOV SS, Ew` (R603). -/
def execMovSsEw (e : RM16) (s : State) : Host.Outcome State Fault Refusal :=
  .next (loadSeg .ss e s)

/-- `MOV DS, Ew` (R603). -/
def execMovDsEw (e : RM16) (s : State) : Host.Outcome State Fault Refusal :=
  .next (loadSeg .ds e s)

/-- `MOV ES, Ew (alias reg 4)` (R455). -/
def execMovEsEwAlias (e : RM16) (s : State) : Host.Outcome State Fault Refusal :=
  aliasOf 0x8E s (loadSeg .es e s)

/-- `MOV SS, Ew (alias reg 6)` (R455). -/
def execMovSsEwAlias (e : RM16) (s : State) : Host.Outcome State Fault Refusal :=
  aliasOf 0x8E s (loadSeg .ss e s)

/-- `MOV DS, Ew (alias reg 7)` (R455). -/
def execMovDsEwAlias (e : RM16) (s : State) : Host.Outcome State Fault Refusal :=
  aliasOf 0x8E s (loadSeg .ds e s)

/-- `MOV AL, [moffs16]` (R604). -/
def execMovAlMoffs (off : Word) (s : State) : Host.Outcome State Fault Refusal :=
  let r := segRead8 (s.segOr .ds) off s
  .next (r.2.setReg8 .al r.1)

/-- `MOV AX, [moffs16]` (R604). -/
def execMovAxMoffs (off : Word) (s : State) : Host.Outcome State Fault Refusal :=
  let r := segRead16 (s.segOr .ds) off s
  .next (r.2.setReg16 .ax r.1)

/-- `MOV [moffs16], AL` (R605). -/
def execMovMoffsAl (off : Word) (s : State) : Host.Outcome State Fault Refusal :=
  .next (segWrite8 (s.segOr .ds) off (s.reg8 .al) s)

/-- `MOV [moffs16], AX` (R605). -/
def execMovMoffsAx (off : Word) (s : State) : Host.Outcome State Fault Refusal :=
  .next (segWrite16 (s.segOr .ds) off (s.reg16 .ax) s)

/-- `MOV r8, Ib` (R606). -/
def execMovR8Ib (r : Reg8) (i : Byte) (s : State) : Host.Outcome State Fault Refusal :=
  .next (s.setReg8 r i)

/-- `MOV r16, Iw` (R607). -/
def execMovR16Iw (r : Reg16) (i : Word) (s : State) : Host.Outcome State Fault Refusal :=
  .next (s.setReg16 r i)

/-- `MOV Eb, Ib` (R608). -/
def execMovEbIb (e : RM8) (i : Byte) (s : State) : Host.Outcome State Fault Refusal :=
  .next (writeRM8 e i s)

/-- `MOV Ev, Iw` (R608). -/
def execMovEvIw (e : RM16) (i : Word) (s : State) : Host.Outcome State Fault Refusal :=
  .next (writeRM16 e i s)

/-- `PUSH r16` (R610). -/
def execPushR16 (r : Reg16) (s : State) : Host.Outcome State Fault Refusal :=
  .next (pushReg r s)

/-- `PUSH ES` (R611). -/
def execPushEs (s : State) : Host.Outcome State Fault Refusal :=
  .next (push (s.seg .es) s)

/-- `PUSH CS` (R611). -/
def execPushCs (s : State) : Host.Outcome State Fault Refusal :=
  .next (push (s.seg .cs) s)

/-- `PUSH SS` (R611). -/
def execPushSs (s : State) : Host.Outcome State Fault Refusal :=
  .next (push (s.seg .ss) s)

/-- `PUSH DS` (R611). -/
def execPushDs (s : State) : Host.Outcome State Fault Refusal :=
  .next (push (s.seg .ds) s)

/-- `PUSH Ev` (R612). -/
def execPushEv (e : RM16) (s : State) : Host.Outcome State Fault Refusal :=
  .next (pushOperand e s)

/-- `POP r16` (R613). -/
def execPopR16 (r : Reg16) (s : State) : Host.Outcome State Fault Refusal :=
  .next (popReg r s)

/-- `POP ES` (R614). -/
def execPopEs (s : State) : Host.Outcome State Fault Refusal :=
  .next (popSeg .es s)

/-- `POP SS` (R614). -/
def execPopSs (s : State) : Host.Outcome State Fault Refusal :=
  .next (popSeg .ss s)

/-- `POP DS` (R614). -/
def execPopDs (s : State) : Host.Outcome State Fault Refusal :=
  .next (popSeg .ds s)

/-- `POP Ev` (R615). -/
def execPopEv (e : RM16) (s : State) : Host.Outcome State Fault Refusal :=
  .next (popOperand e s)

/-- `PUSHF` (R616). -/
def execPushf (s : State) : Host.Outcome State Fault Refusal :=
  .next (push s.cpu.flags.image s)

/-- `POPF` (R617). -/
def execPopf (s : State) : Host.Outcome State Fault Refusal :=
  let v := pop s
  .next (v.2.setFlags (flagsOfWord v.1))

/-- `XCHG Eb, Gb` (R620). -/
def execXchgEbGb (e : RM8) (g : Reg8) (s : State) : Host.Outcome State Fault Refusal :=
  .next (exchange8 e g s)

/-- `XCHG Ev, Gv` (R620). -/
def execXchgEvGv (e : RM16) (g : Reg16) (s : State) : Host.Outcome State Fault Refusal :=
  .next (exchange16 e g s)

/-- `XCHG AX, r16` (R621). -/
def execXchgAxR16 (r : Reg16) (s : State) : Host.Outcome State Fault Refusal :=
  .next ((s.setReg16 .ax (s.reg16 r)).setReg16 r (s.reg16 .ax))

/-- `IN AL, Ib` (R622). -/
def execInAlIb (i : Byte) (s : State) : Host.Outcome State Fault Refusal :=
  .next (inByte (zext16 i) s)

/-- `IN AX, Ib` (R622). -/
def execInAxIb (i : Byte) (s : State) : Host.Outcome State Fault Refusal :=
  .next (inWord (zext16 i) s)

/-- `IN AL, DX` (R623). -/
def execInAlDx (s : State) : Host.Outcome State Fault Refusal :=
  .next (inByte (s.reg16 .dx) s)

/-- `IN AX, DX` (R623). -/
def execInAxDx (s : State) : Host.Outcome State Fault Refusal :=
  .next (inWord (s.reg16 .dx) s)

/-- `OUT Ib, AL` (R624). -/
def execOutIbAl (i : Byte) (s : State) : Host.Outcome State Fault Refusal :=
  .next (ioWriteByte (zext16 i) (s.reg8 .al) s)

/-- `OUT Ib, AX` (R624). -/
def execOutIbAx (i : Byte) (s : State) : Host.Outcome State Fault Refusal :=
  .next (ioWriteWord (zext16 i) (s.reg16 .ax) s)

/-- `OUT DX, AL` (R625). -/
def execOutDxAl (s : State) : Host.Outcome State Fault Refusal :=
  .next (ioWriteByte (s.reg16 .dx) (s.reg8 .al) s)

/-- `OUT DX, AX` (R625). -/
def execOutDxAx (s : State) : Host.Outcome State Fault Refusal :=
  .next (ioWriteWord (s.reg16 .dx) (s.reg16 .ax) s)

/-- `XLAT` (R626). -/
def execXlat (s : State) : Host.Outcome State Fault Refusal :=
  let r := segRead8 (s.segOr .ds) (s.reg16 .bx + zext16 (s.reg8 .al)) s
  .next (r.2.setReg8 .al r.1)

/-- `LEA Gv, M` (R627). -/
def execLeaGvM (g : Reg16) (m : Mem) (s : State) : Host.Outcome State Fault Refusal :=
  .next (s.setReg16 g (effAddr m s))

/-- `LDS Gv, Mp` (R628). -/
def execLdsGvMp (g : Reg16) (m : Mem) (s : State) : Host.Outcome State Fault Refusal :=
  .next (loadFarPtr .ds g m s)

/-- `LES Gv, Mp` (R629). -/
def execLesGvMp (g : Reg16) (m : Mem) (s : State) : Host.Outcome State Fault Refusal :=
  .next (loadFarPtr .es g m s)

/-- `LAHF` (R630). -/
def execLahf (s : State) : Host.Outcome State Fault Refusal :=
  .next (s.setReg8 .ah (loByte s.cpu.flags.image))

/-- `SAHF` (R631). -/
def execSahf (s : State) : Host.Outcome State Fault Refusal :=
  .next (s.mapFlags fun f => f.setLow (s.reg8 .ah))

end Sys2Proof.Machine
end

