-- ==== Sys2Proof/Machine/Arithmetic.lean ====
section
/-! DEFINITION. Meanings of the arithmetic instructions (41 R700 to R755), over the ALU forms that the logic instructions share. -/

namespace Sys2Proof.Machine

/-! ALU forms (R703). A memory destination is read once and written once; CMP writes no destination. -/

/-- `E <- E op b` at byte width. -/
def aluRM8 (op : AluOp) (e : RM8) (b : Byte) (s : State) : State :=
  let l := locate8 e s
  let a := readLoc8 l s
  let r := alu op a.1 b a.2
  if op = .cmp then r.2 else writeLoc8 l r.1 r.2

/-- `E <- E op b` at word width. -/
def aluRM16 (op : AluOp) (e : RM16) (b : Word) (s : State) : State :=
  let l := locate16 e s
  let a := readLoc16 l s
  let r := alu op a.1 b a.2
  if op = .cmp then r.2 else writeLoc16 l r.1 r.2

/-- `G <- G op E` at byte width. -/
def aluReg8 (op : AluOp) (g : Reg8) (e : RM8) (s : State) : State :=
  let b := readRM8 e s
  let r := alu op (b.2.reg8 g) b.1 b.2
  if op = .cmp then r.2 else r.2.setReg8 g r.1

/-- `G <- G op E` at word width. -/
def aluReg16 (op : AluOp) (g : Reg16) (e : RM16) (s : State) : State :=
  let b := readRM16 e s
  let r := alu op (b.2.reg16 g) b.1 b.2
  if op = .cmp then r.2 else r.2.setReg16 g r.1

/-! Increment, decrement, negate (R710 to R714). -/

/-- INC of a byte r/m operand. -/
def incRM8 (e : RM8) : State → State :=
  modifyRM8 e fun a t => (addResult a 1 false, t.mapFlags (incFlags a))

/-- INC of a word r/m operand. -/
def incRM16 (e : RM16) : State → State :=
  modifyRM16 e fun a t => (addResult a 1 false, t.mapFlags (incFlags a))

/-- DEC of a byte r/m operand. -/
def decRM8 (e : RM8) : State → State :=
  modifyRM8 e fun a t => (subResult a 1 false, t.mapFlags (decFlags a))

/-- DEC of a word r/m operand. -/
def decRM16 (e : RM16) : State → State :=
  modifyRM16 e fun a t => (subResult a 1 false, t.mapFlags (decFlags a))

/-- NEG of a byte r/m operand. -/
def negRM8 (e : RM8) : State → State :=
  modifyRM8 e fun a t => (subResult 0 a false, t.mapFlags (subFlags 0 a false))

/-- NEG of a word r/m operand. -/
def negRM16 (e : RM16) : State → State :=
  modifyRM16 e fun a t => (subResult 0 a false, t.mapFlags (subFlags 0 a false))

/-! Multiply (R720, R721, R730). -/

/-- A product, negated by a REP prefix where it applies (R730). -/
def negateIf {w : Nat} (b : Bool) (p : BitVec w) : BitVec w := if b then -p else p

/-- The REP prefix negates the unsigned forms only under `REP_NEGATE_UNSIGNED` (R730, R734). -/
def negatesUnsigned (s : State) : Bool := s.params.repNegateUnsigned && s.cpu.f1

/-- MUL at byte width: AX takes the product; CF and OF say its high half is not zero (R720; after a negation, log 19). -/
def mulByte (v : Byte) (s : State) : State :=
  let p := negateIf (negatesUnsigned s) (zext16 (s.reg8 .al) * zext16 v)
  (setMulFlags (hiByte p != 0) s).setReg16 .ax p

/-- MUL at word width: DX:AX takes the product (R720). -/
def mulWord (v : Word) (s : State) : State :=
  let p := negateIf (negatesUnsigned s) ((s.reg16 .ax).setWidth 32 * v.setWidth 32)
  ((setMulFlags (p.extractLsb' 16 16 != (0 : Word)) s).setReg16 .ax (p.setWidth 16)).setReg16 .dx (p.extractLsb' 16 16)

/-- IMUL at byte width: CF and OF say that AX is not the sign extension of AL (R721, R730). -/
def imulByte (v : Byte) (s : State) : State :=
  let p := negateIf s.cpu.f1 (sext16 (s.reg8 .al) * sext16 v)
  (setMulFlags (p != sext16 (loByte p)) s).setReg16 .ax p

/-- IMUL at word width: CF and OF say that DX:AX is not the sign extension of AX (R721, R730). -/
def imulWord (v : Word) (s : State) : State :=
  let p : BitVec 32 := negateIf s.cpu.f1 ((s.reg16 .ax).signExtend 32 * v.signExtend 32)
  ((setMulFlags (p != (p.setWidth 16 : Word).signExtend 32) s).setReg16 .ax (p.setWidth 16)).setReg16 .dx
    (p.extractLsb' 16 16)

/-! Divide (R722 to R724, R734). -/

/-- The quotient and remainder of an unsigned division into a w-bit quotient, or none for a divide error (R722). -/
def divideUnsigned (w n d : Nat) : Option (Nat × Nat) :=
  if d = 0 ∨ 2 ^ w ≤ n / d then none else some (n / d, n % d)

/-- The quotient, rounded toward zero, and remainder of a signed division into a w-bit quotient, or none for a divide error:
on the 8088 the most negative quotient is out of range too (R723). -/
def divideSigned (w : Nat) (n d : Int) : Option (Int × Int) :=
  if d = 0 then none
  else
    let q := Int.tdiv n d
    if q > 2 ^ (w - 1) - 1 ∨ q < -(2 ^ (w - 1) - 1) then none else some (q, n - q * d)

/-- DIV at byte width: AL the quotient, AH the remainder, the six flags draws (R722). -/
def divByte (v : Byte) (s : State) : State :=
  match divideUnsigned 8 (s.reg16 .ax).toNat v.toNat with
  | none => divideError s
  | some (q, r) =>
    (drawSixFlags s).setReg16 .ax (mkWord (BitVec.ofNat 8 r) (negateIf (negatesUnsigned s) (BitVec.ofNat 8 q)))

/-- DIV at word width: AX the quotient, DX the remainder (R722). -/
def divWord (v : Word) (s : State) : State :=
  match divideUnsigned 16 ((s.reg16 .dx).toNat * 2 ^ 16 + (s.reg16 .ax).toNat) v.toNat with
  | none => divideError s
  | some (q, r) =>
    ((drawSixFlags s).setReg16 .ax (negateIf (negatesUnsigned s) (BitVec.ofNat 16 q))).setReg16 .dx (BitVec.ofNat 16 r)

/-- IDIV at byte width (R723); a REP prefix negates the quotient, not the remainder (R734). -/
def idivByte (v : Byte) (s : State) : State :=
  match divideSigned 8 (s.reg16 .ax).toInt v.toInt with
  | none => divideError s
  | some (q, r) =>
    (drawSixFlags s).setReg16 .ax (mkWord (BitVec.ofInt 8 r) (negateIf s.cpu.f1 (BitVec.ofInt 8 q)))

/-- IDIV at word width (R723, R734). -/
def idivWord (v : Word) (s : State) : State :=
  match divideSigned 16 ((s.reg16 .dx ++ s.reg16 .ax : BitVec (16 + 16))).toInt v.toInt with
  | none => divideError s
  | some (q, r) =>
    ((drawSixFlags s).setReg16 .ax (negateIf s.cpu.f1 (BitVec.ofInt 16 q))).setReg16 .dx (BitVec.ofInt 16 r)

/-! BCD and ASCII adjusts (R740 to R745). -/

/-- The first test of DAA, DAS, AAA and AAS: the low digit is above 9, or AF is set. -/
def adjustsLow (x : Byte) (f : Flags) : Bool := decide (9 < (x &&& 0x0F).toNat) || f.af

/-- The second test of DAA and DAS, on the old AL (R740, R741, D44). -/
def adjustsHigh (t : DaaThreshold) (x : Byte) (f : Flags) : Bool :=
  let limit : Nat := match t with
    | .intel => 0x99
    | .afDependent => if f.af then 0x9F else 0x99
  decide (limit < x.toNat) || f.cf

/-- DAA's AL (R740). -/
def daaResult (t : DaaThreshold) (x : Byte) (f : Flags) : Byte :=
  x + (if adjustsLow x f then 6 else 0) + (if adjustsHigh t x f then 0x60 else 0)

/-- DAS's AL (R741). -/
def dasResult (t : DaaThreshold) (x : Byte) (f : Flags) : Byte :=
  x - (if adjustsLow x f then 6 else 0) - (if adjustsHigh t x f then 0x60 else 0)

/-- The flags of DAA and DAS with AL's new value r: OF given. -/
def decimalFlags (t : DaaThreshold) (x r : Byte) (ovf : Bool) (f : Flags) : Flags :=
  { f.szp r with af := adjustsLow x f, cf := adjustsHigh t x f, ovf := ovf }

/-- DAA and DAS with AL's new value r: the flags, OF a draw, and AL. -/
def decimalAdjust (r : Byte) (s : State) : State :=
  let d := drawBit s
  (d.2.mapFlags (decimalFlags s.params.daaThreshold (s.reg8 .al) r d.1)).setReg8 .al r

/-- AAA and AAS: the adjusted AX, from AL and AH moved by 6 and 1 (R742, R743). -/
def asciiAdjust (al ah : Byte) (s : State) : State :=
  let adj := adjustsLow (s.reg8 .al) s.cpu.flags
  let o := drawBit s
  let sg := drawBit o.2
  let z := drawBit sg.2
  let p := drawBit z.2
  (p.2.mapFlags fun f => { f with af := adj, cf := adj, ovf := o.1, sf := sg.1, zf := z.1, pf := p.1 }).setReg16 .ax
    (if adj then mkWord ah (al &&& 0x0F) else mkWord (s.reg8 .ah) (s.reg8 .al &&& 0x0F))

/-- The flags of AAM and AAD: SZP of AL, and CF, OF, AF draws (R744, R745). -/
def asciiFlags (r : Byte) (s : State) : State :=
  let c := drawBit s
  let o := drawBit c.2
  let a := drawBit o.2
  a.2.mapFlags fun f => { f.szp r with cf := c.1, ovf := o.1, af := a.1 }

/-- AAM: a base of 0 is a divide error (R744). -/
def aam (i : Byte) (s : State) : State :=
  if i = 0 then divideError s
  else
    let r := s.reg8 .al % i
    (asciiFlags r s).setReg16 .ax (mkWord (s.reg8 .al / i) r)

/-- AAD (R745). -/
def aad (i : Byte) (s : State) : State :=
  let r := s.reg8 .al + s.reg8 .ah * i
  (asciiFlags r s).setReg16 .ax (mkWord 0 r)

/-! Meanings. -/

/-- `ADD Eb, Gb` (R705). -/
def execAddEbGb (e : RM8) (g : Reg8) (s : State) : Host.Outcome State Fault Refusal :=
  .next (aluRM8 .add e (s.reg8 g) s)

/-- `ADD Ev, Gv` (R705). -/
def execAddEvGv (e : RM16) (g : Reg16) (s : State) : Host.Outcome State Fault Refusal :=
  .next (aluRM16 .add e (s.reg16 g) s)

/-- `ADD Gb, Eb` (R705). -/
def execAddGbEb (g : Reg8) (e : RM8) (s : State) : Host.Outcome State Fault Refusal :=
  .next (aluReg8 .add g e s)

/-- `ADD Gv, Ev` (R705). -/
def execAddGvEv (g : Reg16) (e : RM16) (s : State) : Host.Outcome State Fault Refusal :=
  .next (aluReg16 .add g e s)

/-- `ADD AL, Ib` (R705). -/
def execAddAlIb (i : Byte) (s : State) : Host.Outcome State Fault Refusal :=
  .next (aluRM8 .add (.reg .al) i s)

/-- `ADD AX, Iw` (R705). -/
def execAddAxIw (i : Word) (s : State) : Host.Outcome State Fault Refusal :=
  .next (aluRM16 .add (.reg .ax) i s)

/-- `ADD Eb, Ib` (R705). -/
def execAddEbIb (e : RM8) (i : Byte) (s : State) : Host.Outcome State Fault Refusal :=
  .next (aluRM8 .add e i s)

/-- `ADD Ev, Iw` (R705). -/
def execAddEvIw (e : RM16) (i : Word) (s : State) : Host.Outcome State Fault Refusal :=
  .next (aluRM16 .add e i s)

/-- `ADD Eb, Ib` (R455). -/
def execAddEbIbAlias (e : RM8) (i : Byte) (s : State) : Host.Outcome State Fault Refusal :=
  aliasOf 0x82 s (aluRM8 .add e i s)

/-- `ADD Ev, sext(Ib)` (R705). -/
def execAddEvIbSx (e : RM16) (i : Byte) (s : State) : Host.Outcome State Fault Refusal :=
  .next (aluRM16 .add e (sext16 i) s)

/-- `ADC Eb, Gb` (R706). -/
def execAdcEbGb (e : RM8) (g : Reg8) (s : State) : Host.Outcome State Fault Refusal :=
  .next (aluRM8 .adc e (s.reg8 g) s)

/-- `ADC Ev, Gv` (R706). -/
def execAdcEvGv (e : RM16) (g : Reg16) (s : State) : Host.Outcome State Fault Refusal :=
  .next (aluRM16 .adc e (s.reg16 g) s)

/-- `ADC Gb, Eb` (R706). -/
def execAdcGbEb (g : Reg8) (e : RM8) (s : State) : Host.Outcome State Fault Refusal :=
  .next (aluReg8 .adc g e s)

/-- `ADC Gv, Ev` (R706). -/
def execAdcGvEv (g : Reg16) (e : RM16) (s : State) : Host.Outcome State Fault Refusal :=
  .next (aluReg16 .adc g e s)

/-- `ADC AL, Ib` (R706). -/
def execAdcAlIb (i : Byte) (s : State) : Host.Outcome State Fault Refusal :=
  .next (aluRM8 .adc (.reg .al) i s)

/-- `ADC AX, Iw` (R706). -/
def execAdcAxIw (i : Word) (s : State) : Host.Outcome State Fault Refusal :=
  .next (aluRM16 .adc (.reg .ax) i s)

/-- `ADC Eb, Ib` (R706). -/
def execAdcEbIb (e : RM8) (i : Byte) (s : State) : Host.Outcome State Fault Refusal :=
  .next (aluRM8 .adc e i s)

/-- `ADC Ev, Iw` (R706). -/
def execAdcEvIw (e : RM16) (i : Word) (s : State) : Host.Outcome State Fault Refusal :=
  .next (aluRM16 .adc e i s)

/-- `ADC Eb, Ib` (R455). -/
def execAdcEbIbAlias (e : RM8) (i : Byte) (s : State) : Host.Outcome State Fault Refusal :=
  aliasOf 0x82 s (aluRM8 .adc e i s)

/-- `ADC Ev, sext(Ib)` (R706). -/
def execAdcEvIbSx (e : RM16) (i : Byte) (s : State) : Host.Outcome State Fault Refusal :=
  .next (aluRM16 .adc e (sext16 i) s)

/-- `SUB Eb, Gb` (R707). -/
def execSubEbGb (e : RM8) (g : Reg8) (s : State) : Host.Outcome State Fault Refusal :=
  .next (aluRM8 .sub e (s.reg8 g) s)

/-- `SUB Ev, Gv` (R707). -/
def execSubEvGv (e : RM16) (g : Reg16) (s : State) : Host.Outcome State Fault Refusal :=
  .next (aluRM16 .sub e (s.reg16 g) s)

/-- `SUB Gb, Eb` (R707). -/
def execSubGbEb (g : Reg8) (e : RM8) (s : State) : Host.Outcome State Fault Refusal :=
  .next (aluReg8 .sub g e s)

/-- `SUB Gv, Ev` (R707). -/
def execSubGvEv (g : Reg16) (e : RM16) (s : State) : Host.Outcome State Fault Refusal :=
  .next (aluReg16 .sub g e s)

/-- `SUB AL, Ib` (R707). -/
def execSubAlIb (i : Byte) (s : State) : Host.Outcome State Fault Refusal :=
  .next (aluRM8 .sub (.reg .al) i s)

/-- `SUB AX, Iw` (R707). -/
def execSubAxIw (i : Word) (s : State) : Host.Outcome State Fault Refusal :=
  .next (aluRM16 .sub (.reg .ax) i s)

/-- `SUB Eb, Ib` (R707). -/
def execSubEbIb (e : RM8) (i : Byte) (s : State) : Host.Outcome State Fault Refusal :=
  .next (aluRM8 .sub e i s)

/-- `SUB Ev, Iw` (R707). -/
def execSubEvIw (e : RM16) (i : Word) (s : State) : Host.Outcome State Fault Refusal :=
  .next (aluRM16 .sub e i s)

/-- `SUB Eb, Ib` (R455). -/
def execSubEbIbAlias (e : RM8) (i : Byte) (s : State) : Host.Outcome State Fault Refusal :=
  aliasOf 0x82 s (aluRM8 .sub e i s)

/-- `SUB Ev, sext(Ib)` (R707). -/
def execSubEvIbSx (e : RM16) (i : Byte) (s : State) : Host.Outcome State Fault Refusal :=
  .next (aluRM16 .sub e (sext16 i) s)

/-- `SBB Eb, Gb` (R708). -/
def execSbbEbGb (e : RM8) (g : Reg8) (s : State) : Host.Outcome State Fault Refusal :=
  .next (aluRM8 .sbb e (s.reg8 g) s)

/-- `SBB Ev, Gv` (R708). -/
def execSbbEvGv (e : RM16) (g : Reg16) (s : State) : Host.Outcome State Fault Refusal :=
  .next (aluRM16 .sbb e (s.reg16 g) s)

/-- `SBB Gb, Eb` (R708). -/
def execSbbGbEb (g : Reg8) (e : RM8) (s : State) : Host.Outcome State Fault Refusal :=
  .next (aluReg8 .sbb g e s)

/-- `SBB Gv, Ev` (R708). -/
def execSbbGvEv (g : Reg16) (e : RM16) (s : State) : Host.Outcome State Fault Refusal :=
  .next (aluReg16 .sbb g e s)

/-- `SBB AL, Ib` (R708). -/
def execSbbAlIb (i : Byte) (s : State) : Host.Outcome State Fault Refusal :=
  .next (aluRM8 .sbb (.reg .al) i s)

/-- `SBB AX, Iw` (R708). -/
def execSbbAxIw (i : Word) (s : State) : Host.Outcome State Fault Refusal :=
  .next (aluRM16 .sbb (.reg .ax) i s)

/-- `SBB Eb, Ib` (R708). -/
def execSbbEbIb (e : RM8) (i : Byte) (s : State) : Host.Outcome State Fault Refusal :=
  .next (aluRM8 .sbb e i s)

/-- `SBB Ev, Iw` (R708). -/
def execSbbEvIw (e : RM16) (i : Word) (s : State) : Host.Outcome State Fault Refusal :=
  .next (aluRM16 .sbb e i s)

/-- `SBB Eb, Ib` (R455). -/
def execSbbEbIbAlias (e : RM8) (i : Byte) (s : State) : Host.Outcome State Fault Refusal :=
  aliasOf 0x82 s (aluRM8 .sbb e i s)

/-- `SBB Ev, sext(Ib)` (R708). -/
def execSbbEvIbSx (e : RM16) (i : Byte) (s : State) : Host.Outcome State Fault Refusal :=
  .next (aluRM16 .sbb e (sext16 i) s)

/-- `CMP Eb, Gb` (R709). -/
def execCmpEbGb (e : RM8) (g : Reg8) (s : State) : Host.Outcome State Fault Refusal :=
  .next (aluRM8 .cmp e (s.reg8 g) s)

/-- `CMP Ev, Gv` (R709). -/
def execCmpEvGv (e : RM16) (g : Reg16) (s : State) : Host.Outcome State Fault Refusal :=
  .next (aluRM16 .cmp e (s.reg16 g) s)

/-- `CMP Gb, Eb` (R709). -/
def execCmpGbEb (g : Reg8) (e : RM8) (s : State) : Host.Outcome State Fault Refusal :=
  .next (aluReg8 .cmp g e s)

/-- `CMP Gv, Ev` (R709). -/
def execCmpGvEv (g : Reg16) (e : RM16) (s : State) : Host.Outcome State Fault Refusal :=
  .next (aluReg16 .cmp g e s)

/-- `CMP AL, Ib` (R709). -/
def execCmpAlIb (i : Byte) (s : State) : Host.Outcome State Fault Refusal :=
  .next (aluRM8 .cmp (.reg .al) i s)

/-- `CMP AX, Iw` (R709). -/
def execCmpAxIw (i : Word) (s : State) : Host.Outcome State Fault Refusal :=
  .next (aluRM16 .cmp (.reg .ax) i s)

/-- `CMP Eb, Ib` (R709). -/
def execCmpEbIb (e : RM8) (i : Byte) (s : State) : Host.Outcome State Fault Refusal :=
  .next (aluRM8 .cmp e i s)

/-- `CMP Ev, Iw` (R709). -/
def execCmpEvIw (e : RM16) (i : Word) (s : State) : Host.Outcome State Fault Refusal :=
  .next (aluRM16 .cmp e i s)

/-- `CMP Eb, Ib` (R455). -/
def execCmpEbIbAlias (e : RM8) (i : Byte) (s : State) : Host.Outcome State Fault Refusal :=
  aliasOf 0x82 s (aluRM8 .cmp e i s)

/-- `CMP Ev, sext(Ib)` (R709). -/
def execCmpEvIbSx (e : RM16) (i : Byte) (s : State) : Host.Outcome State Fault Refusal :=
  .next (aluRM16 .cmp e (sext16 i) s)

/-- `INC r16` (R710). -/
def execIncR16 (r : Reg16) (s : State) : Host.Outcome State Fault Refusal :=
  .next (incRM16 (.reg r) s)

/-- `DEC r16` (R712). -/
def execDecR16 (r : Reg16) (s : State) : Host.Outcome State Fault Refusal :=
  .next (decRM16 (.reg r) s)

/-- `INC Eb` (R711). -/
def execIncEb (e : RM8) (s : State) : Host.Outcome State Fault Refusal :=
  .next (incRM8 e s)

/-- `INC Ev` (R711). -/
def execIncEv (e : RM16) (s : State) : Host.Outcome State Fault Refusal :=
  .next (incRM16 e s)

/-- `DEC Eb` (R713). -/
def execDecEb (e : RM8) (s : State) : Host.Outcome State Fault Refusal :=
  .next (decRM8 e s)

/-- `DEC Ev` (R713). -/
def execDecEv (e : RM16) (s : State) : Host.Outcome State Fault Refusal :=
  .next (decRM16 e s)

/-- `NEG Eb` (R714). -/
def execNegEb (e : RM8) (s : State) : Host.Outcome State Fault Refusal :=
  .next (negRM8 e s)

/-- `NEG Ev` (R714). -/
def execNegEv (e : RM16) (s : State) : Host.Outcome State Fault Refusal :=
  .next (negRM16 e s)

/-- `MUL Eb` (R720). -/
def execMulEb (e : RM8) (s : State) : Host.Outcome State Fault Refusal :=
  let r := readRM8 e s
  .next (mulByte r.1 r.2)

/-- `MUL Ev` (R720). -/
def execMulEv (e : RM16) (s : State) : Host.Outcome State Fault Refusal :=
  let r := readRM16 e s
  .next (mulWord r.1 r.2)

/-- `IMUL Eb` (R721). -/
def execImulEb (e : RM8) (s : State) : Host.Outcome State Fault Refusal :=
  let r := readRM8 e s
  .next (imulByte r.1 r.2)

/-- `IMUL Ev` (R721). -/
def execImulEv (e : RM16) (s : State) : Host.Outcome State Fault Refusal :=
  let r := readRM16 e s
  .next (imulWord r.1 r.2)

/-- `DIV Eb` (R722). -/
def execDivEb (e : RM8) (s : State) : Host.Outcome State Fault Refusal :=
  let r := readRM8 e s
  .next (divByte r.1 r.2)

/-- `DIV Ev` (R722). -/
def execDivEv (e : RM16) (s : State) : Host.Outcome State Fault Refusal :=
  let r := readRM16 e s
  .next (divWord r.1 r.2)

/-- `IDIV Eb` (R723). -/
def execIdivEb (e : RM8) (s : State) : Host.Outcome State Fault Refusal :=
  let r := readRM8 e s
  .next (idivByte r.1 r.2)

/-- `IDIV Ev` (R723). -/
def execIdivEv (e : RM16) (s : State) : Host.Outcome State Fault Refusal :=
  let r := readRM16 e s
  .next (idivWord r.1 r.2)

/-- `DAA` (R740). -/
def execDaa (s : State) : Host.Outcome State Fault Refusal :=
  .next (decimalAdjust (daaResult s.params.daaThreshold (s.reg8 .al) s.cpu.flags) s)

/-- `DAS` (R741). -/
def execDas (s : State) : Host.Outcome State Fault Refusal :=
  .next (decimalAdjust (dasResult s.params.daaThreshold (s.reg8 .al) s.cpu.flags) s)

/-- `AAA` (R742). -/
def execAaa (s : State) : Host.Outcome State Fault Refusal :=
  .next (asciiAdjust (s.reg8 .al + 6) (s.reg8 .ah + 1) s)

/-- `AAS` (R743). -/
def execAas (s : State) : Host.Outcome State Fault Refusal :=
  .next (asciiAdjust (s.reg8 .al - 6) (s.reg8 .ah - 1) s)

/-- `AAM Ib` (R744). -/
def execAamIb (i : Byte) (s : State) : Host.Outcome State Fault Refusal :=
  .next (aam i s)

/-- `AAD Ib` (R745). -/
def execAadIb (i : Byte) (s : State) : Host.Outcome State Fault Refusal :=
  .next (aad i s)

/-- `CBW` (R750). -/
def execCbw (s : State) : Host.Outcome State Fault Refusal :=
  .next (s.setReg16 .ax (sext16 (s.reg8 .al)))

/-- `CWD` (R751). -/
def execCwd (s : State) : Host.Outcome State Fault Refusal :=
  .next (s.setReg16 .dx (if (s.reg16 .ax).msb then 0xFFFF else 0))

/-- `SALC` (R752). -/
def execSalc (s : State) : Host.Outcome State Fault Refusal :=
  aliasOf 0xD6 s (s.setReg8 .al (if s.cpu.flags.cf then 0xFF else 0))

end Sys2Proof.Machine
end

