-- ==== Sys2Proof/Machine/LogicShift.lean ====
section
/-! DEFINITION. Meanings of the logic, shift and rotate instructions (42 R800 to R818). -/

namespace Sys2Proof.Machine

/-! Shared forms. -/

/-- TEST at byte width: only the flags of `a AND b` (R804). -/
def test8 (e : RM8) (b : Byte) (s : State) : State :=
  let a := readRM8 e s
  setLogicFlags (a.1 &&& b) a.2

/-- TEST at word width (R804). -/
def test16 (e : RM16) (b : Word) (s : State) : State :=
  let a := readRM16 e s
  setLogicFlags (a.1 &&& b) a.2

/-- The write-back of a byte that a count-0 shift may or may not perform (R810, D46): where it does, the bus cycle and the
history entry of a write, the EU's own clocks counted from its T1 as in `carryWrite`; the array keeps its byte either way, the
value being the one just read, and a cycle in progress completes either way (log 16). -/
def rewriteByteAt (b : Bool) (access : AccessType) (base off : Word) (v : Byte) (s : State) : State :=
  let c := takeEuClocks (biuTurn s).settle
  let t := c.2
  let a := lin base off
  let w := if t.bus.isDevice a && b then oracleWrite t else (0, t)
  let r : BusRequest := { kind := .memWrite, access := access, addr := a, data := some v }
  euClocks (c.1 - 2)
    { t with
      history := if b then .memWrite access a v :: t.history else t.history
      biu := { t.biu with cycle := if b then dataPhase none w.1 (openCycle r t.biu.cycle) else t.biu.cycle }
      env := w.2.env
      draws := w.2.draws }

/-- A count of 0 at byte width: a register keeps its value, a memory operand may be written back (R810, D46). -/
def rewriteLoc8 (l : Loc8) (v : Byte) (s : State) : State :=
  match l with
  | .reg _ => s
  | .mem sr off =>
    let d := drawBit s
    rewriteByteAt d.1 (accessOf sr) (s.seg sr) off v d.2

/-- The same at word width, low byte first. -/
def rewriteLoc16 (l : Loc16) (v : Word) (s : State) : State :=
  match l with
  | .reg _ => s
  | .mem sr off =>
    let d := drawBit s
    rewriteByteAt d.1 (accessOf sr) (s.seg sr) (off + 1) (hiByte v)
      (rewriteByteAt d.1 (accessOf sr) (s.seg sr) off (loByte v) d.2)

/-- A shift or rotate of a byte operand by a count (R810). -/
def shiftRM8 (op : ShiftOp) (count : Nat) (e : RM8) (s : State) : State :=
  let l := locate8 e s
  let a := readLoc8 l s
  if count = 0 then rewriteLoc8 l a.1 a.2
  else
    let r := shift op count a.1 a.2
    writeLoc8 l r.1 r.2

/-- A shift or rotate of a word operand by a count (R810). -/
def shiftRM16 (op : ShiftOp) (count : Nat) (e : RM16) (s : State) : State :=
  let l := locate16 e s
  let a := readLoc16 l s
  if count = 0 then rewriteLoc16 l a.1 a.2
  else
    let r := shift op count a.1 a.2
    writeLoc16 l r.1 r.2

/-- SETMO and SETMOC at byte width (R818), in the frame of R810 (log 17). -/
def setmoRM8 (count : Nat) (e : RM8) (s : State) : State :=
  let l := locate8 e s
  let a := readLoc8 l s
  if count = 0 then rewriteLoc8 l a.1 a.2
  else writeLoc8 l 0xFF (a.2.mapFlags (setmoFlags (0xFF : Byte)))

/-- SETMO and SETMOC at word width (R818). -/
def setmoRM16 (count : Nat) (e : RM16) (s : State) : State :=
  let l := locate16 e s
  let a := readLoc16 l s
  if count = 0 then rewriteLoc16 l a.1 a.2
  else writeLoc16 l 0xFFFF (a.2.mapFlags (setmoFlags (0xFFFF : Word)))

/-- The count of D2 and D3: all of CL (R810). -/
def shiftCount (s : State) : Nat := (s.reg8 .cl).toNat

/-! Meanings. -/

/-- `AND Eb, Gb` (R801). -/
def execAndEbGb (e : RM8) (g : Reg8) (s : State) : Host.Outcome State Fault Refusal :=
  .next (aluRM8 .and e (s.reg8 g) s)

/-- `AND Ev, Gv` (R801). -/
def execAndEvGv (e : RM16) (g : Reg16) (s : State) : Host.Outcome State Fault Refusal :=
  .next (aluRM16 .and e (s.reg16 g) s)

/-- `AND Gb, Eb` (R801). -/
def execAndGbEb (g : Reg8) (e : RM8) (s : State) : Host.Outcome State Fault Refusal :=
  .next (aluReg8 .and g e s)

/-- `AND Gv, Ev` (R801). -/
def execAndGvEv (g : Reg16) (e : RM16) (s : State) : Host.Outcome State Fault Refusal :=
  .next (aluReg16 .and g e s)

/-- `AND AL, Ib` (R801). -/
def execAndAlIb (i : Byte) (s : State) : Host.Outcome State Fault Refusal :=
  .next (aluRM8 .and (.reg .al) i s)

/-- `AND AX, Iw` (R801). -/
def execAndAxIw (i : Word) (s : State) : Host.Outcome State Fault Refusal :=
  .next (aluRM16 .and (.reg .ax) i s)

/-- `AND Eb, Ib` (R801). -/
def execAndEbIb (e : RM8) (i : Byte) (s : State) : Host.Outcome State Fault Refusal :=
  .next (aluRM8 .and e i s)

/-- `AND Ev, Iw` (R801). -/
def execAndEvIw (e : RM16) (i : Word) (s : State) : Host.Outcome State Fault Refusal :=
  .next (aluRM16 .and e i s)

/-- `AND Eb, Ib` (R455). -/
def execAndEbIbAlias (e : RM8) (i : Byte) (s : State) : Host.Outcome State Fault Refusal :=
  aliasOf 0x82 s (aluRM8 .and e i s)

/-- `AND Ev, sext(Ib)` (R801). -/
def execAndEvIbSx (e : RM16) (i : Byte) (s : State) : Host.Outcome State Fault Refusal :=
  .next (aluRM16 .and e (sext16 i) s)

/-- `OR Eb, Gb` (R802). -/
def execOrEbGb (e : RM8) (g : Reg8) (s : State) : Host.Outcome State Fault Refusal :=
  .next (aluRM8 .or e (s.reg8 g) s)

/-- `OR Ev, Gv` (R802). -/
def execOrEvGv (e : RM16) (g : Reg16) (s : State) : Host.Outcome State Fault Refusal :=
  .next (aluRM16 .or e (s.reg16 g) s)

/-- `OR Gb, Eb` (R802). -/
def execOrGbEb (g : Reg8) (e : RM8) (s : State) : Host.Outcome State Fault Refusal :=
  .next (aluReg8 .or g e s)

/-- `OR Gv, Ev` (R802). -/
def execOrGvEv (g : Reg16) (e : RM16) (s : State) : Host.Outcome State Fault Refusal :=
  .next (aluReg16 .or g e s)

/-- `OR AL, Ib` (R802). -/
def execOrAlIb (i : Byte) (s : State) : Host.Outcome State Fault Refusal :=
  .next (aluRM8 .or (.reg .al) i s)

/-- `OR AX, Iw` (R802). -/
def execOrAxIw (i : Word) (s : State) : Host.Outcome State Fault Refusal :=
  .next (aluRM16 .or (.reg .ax) i s)

/-- `OR Eb, Ib` (R802). -/
def execOrEbIb (e : RM8) (i : Byte) (s : State) : Host.Outcome State Fault Refusal :=
  .next (aluRM8 .or e i s)

/-- `OR Ev, Iw` (R802). -/
def execOrEvIw (e : RM16) (i : Word) (s : State) : Host.Outcome State Fault Refusal :=
  .next (aluRM16 .or e i s)

/-- `OR Eb, Ib` (R455). -/
def execOrEbIbAlias (e : RM8) (i : Byte) (s : State) : Host.Outcome State Fault Refusal :=
  aliasOf 0x82 s (aluRM8 .or e i s)

/-- `OR Ev, sext(Ib)` (R802). -/
def execOrEvIbSx (e : RM16) (i : Byte) (s : State) : Host.Outcome State Fault Refusal :=
  .next (aluRM16 .or e (sext16 i) s)

/-- `XOR Eb, Gb` (R803). -/
def execXorEbGb (e : RM8) (g : Reg8) (s : State) : Host.Outcome State Fault Refusal :=
  .next (aluRM8 .xor e (s.reg8 g) s)

/-- `XOR Ev, Gv` (R803). -/
def execXorEvGv (e : RM16) (g : Reg16) (s : State) : Host.Outcome State Fault Refusal :=
  .next (aluRM16 .xor e (s.reg16 g) s)

/-- `XOR Gb, Eb` (R803). -/
def execXorGbEb (g : Reg8) (e : RM8) (s : State) : Host.Outcome State Fault Refusal :=
  .next (aluReg8 .xor g e s)

/-- `XOR Gv, Ev` (R803). -/
def execXorGvEv (g : Reg16) (e : RM16) (s : State) : Host.Outcome State Fault Refusal :=
  .next (aluReg16 .xor g e s)

/-- `XOR AL, Ib` (R803). -/
def execXorAlIb (i : Byte) (s : State) : Host.Outcome State Fault Refusal :=
  .next (aluRM8 .xor (.reg .al) i s)

/-- `XOR AX, Iw` (R803). -/
def execXorAxIw (i : Word) (s : State) : Host.Outcome State Fault Refusal :=
  .next (aluRM16 .xor (.reg .ax) i s)

/-- `XOR Eb, Ib` (R803). -/
def execXorEbIb (e : RM8) (i : Byte) (s : State) : Host.Outcome State Fault Refusal :=
  .next (aluRM8 .xor e i s)

/-- `XOR Ev, Iw` (R803). -/
def execXorEvIw (e : RM16) (i : Word) (s : State) : Host.Outcome State Fault Refusal :=
  .next (aluRM16 .xor e i s)

/-- `XOR Eb, Ib` (R455). -/
def execXorEbIbAlias (e : RM8) (i : Byte) (s : State) : Host.Outcome State Fault Refusal :=
  aliasOf 0x82 s (aluRM8 .xor e i s)

/-- `XOR Ev, sext(Ib)` (R803). -/
def execXorEvIbSx (e : RM16) (i : Byte) (s : State) : Host.Outcome State Fault Refusal :=
  .next (aluRM16 .xor e (sext16 i) s)

/-- `TEST Eb, Gb` (R804). -/
def execTestEbGb (e : RM8) (g : Reg8) (s : State) : Host.Outcome State Fault Refusal :=
  .next (test8 e (s.reg8 g) s)

/-- `TEST Ev, Gv` (R804). -/
def execTestEvGv (e : RM16) (g : Reg16) (s : State) : Host.Outcome State Fault Refusal :=
  .next (test16 e (s.reg16 g) s)

/-- `TEST AL, Ib` (R804). -/
def execTestAlIb (i : Byte) (s : State) : Host.Outcome State Fault Refusal :=
  .next (test8 (.reg .al) i s)

/-- `TEST AX, Iw` (R804). -/
def execTestAxIw (i : Word) (s : State) : Host.Outcome State Fault Refusal :=
  .next (test16 (.reg .ax) i s)

/-- `TEST Eb, Ib` (R804). -/
def execTestEbIb (e : RM8) (i : Byte) (s : State) : Host.Outcome State Fault Refusal :=
  .next (test8 e i s)

/-- `TEST Ev, Iw` (R804). -/
def execTestEvIw (e : RM16) (i : Word) (s : State) : Host.Outcome State Fault Refusal :=
  .next (test16 e i s)

/-- `TEST Eb, Ib (alias of /0)` (R455). -/
def execTestEbIbAlias (e : RM8) (i : Byte) (s : State) : Host.Outcome State Fault Refusal :=
  aliasOf 0xF6 s (test8 e i s)

/-- `TEST Ev, Iw (alias of /0)` (R455). -/
def execTestEvIwAlias (e : RM16) (i : Word) (s : State) : Host.Outcome State Fault Refusal :=
  aliasOf 0xF7 s (test16 e i s)

/-- `NOT Eb` (R805). -/
def execNotEb (e : RM8) (s : State) : Host.Outcome State Fault Refusal :=
  .next (modifyRM8 e (fun a t => (~~~a, t)) s)

/-- `NOT Ev` (R805). -/
def execNotEv (e : RM16) (s : State) : Host.Outcome State Fault Refusal :=
  .next (modifyRM16 e (fun a t => (~~~a, t)) s)

/-- `ROL Eb, 1` (R811). -/
def execRolEb1 (e : RM8) (s : State) : Host.Outcome State Fault Refusal :=
  .next (shiftRM8 .rol 1 e s)

/-- `ROR Eb, 1` (R812). -/
def execRorEb1 (e : RM8) (s : State) : Host.Outcome State Fault Refusal :=
  .next (shiftRM8 .ror 1 e s)

/-- `RCL Eb, 1` (R813). -/
def execRclEb1 (e : RM8) (s : State) : Host.Outcome State Fault Refusal :=
  .next (shiftRM8 .rcl 1 e s)

/-- `RCR Eb, 1` (R814). -/
def execRcrEb1 (e : RM8) (s : State) : Host.Outcome State Fault Refusal :=
  .next (shiftRM8 .rcr 1 e s)

/-- `SHL Eb, 1` (R815). -/
def execShlEb1 (e : RM8) (s : State) : Host.Outcome State Fault Refusal :=
  .next (shiftRM8 .shl 1 e s)

/-- `SHR Eb, 1` (R816). -/
def execShrEb1 (e : RM8) (s : State) : Host.Outcome State Fault Refusal :=
  .next (shiftRM8 .shr 1 e s)

/-- `SETMO Eb, 1` (R818). -/
def execSetmoEb1 (e : RM8) (s : State) : Host.Outcome State Fault Refusal :=
  aliasOf 0xD0 s (setmoRM8 1 e s)

/-- `SAR Eb, 1` (R817). -/
def execSarEb1 (e : RM8) (s : State) : Host.Outcome State Fault Refusal :=
  .next (shiftRM8 .sar 1 e s)

/-- `ROL Ev, 1` (R811). -/
def execRolEv1 (e : RM16) (s : State) : Host.Outcome State Fault Refusal :=
  .next (shiftRM16 .rol 1 e s)

/-- `ROR Ev, 1` (R812). -/
def execRorEv1 (e : RM16) (s : State) : Host.Outcome State Fault Refusal :=
  .next (shiftRM16 .ror 1 e s)

/-- `RCL Ev, 1` (R813). -/
def execRclEv1 (e : RM16) (s : State) : Host.Outcome State Fault Refusal :=
  .next (shiftRM16 .rcl 1 e s)

/-- `RCR Ev, 1` (R814). -/
def execRcrEv1 (e : RM16) (s : State) : Host.Outcome State Fault Refusal :=
  .next (shiftRM16 .rcr 1 e s)

/-- `SHL Ev, 1` (R815). -/
def execShlEv1 (e : RM16) (s : State) : Host.Outcome State Fault Refusal :=
  .next (shiftRM16 .shl 1 e s)

/-- `SHR Ev, 1` (R816). -/
def execShrEv1 (e : RM16) (s : State) : Host.Outcome State Fault Refusal :=
  .next (shiftRM16 .shr 1 e s)

/-- `SETMO Ev, 1` (R818). -/
def execSetmoEv1 (e : RM16) (s : State) : Host.Outcome State Fault Refusal :=
  aliasOf 0xD1 s (setmoRM16 1 e s)

/-- `SAR Ev, 1` (R817). -/
def execSarEv1 (e : RM16) (s : State) : Host.Outcome State Fault Refusal :=
  .next (shiftRM16 .sar 1 e s)

/-- `ROL Eb, CL` (R811). -/
def execRolEbCl (e : RM8) (s : State) : Host.Outcome State Fault Refusal :=
  .next (shiftRM8 .rol (shiftCount s) e s)

/-- `ROR Eb, CL` (R812). -/
def execRorEbCl (e : RM8) (s : State) : Host.Outcome State Fault Refusal :=
  .next (shiftRM8 .ror (shiftCount s) e s)

/-- `RCL Eb, CL` (R813). -/
def execRclEbCl (e : RM8) (s : State) : Host.Outcome State Fault Refusal :=
  .next (shiftRM8 .rcl (shiftCount s) e s)

/-- `RCR Eb, CL` (R814). -/
def execRcrEbCl (e : RM8) (s : State) : Host.Outcome State Fault Refusal :=
  .next (shiftRM8 .rcr (shiftCount s) e s)

/-- `SHL Eb, CL` (R815). -/
def execShlEbCl (e : RM8) (s : State) : Host.Outcome State Fault Refusal :=
  .next (shiftRM8 .shl (shiftCount s) e s)

/-- `SHR Eb, CL` (R816). -/
def execShrEbCl (e : RM8) (s : State) : Host.Outcome State Fault Refusal :=
  .next (shiftRM8 .shr (shiftCount s) e s)

/-- `SETMOC Eb, CL` (R818). -/
def execSetmocEbCl (e : RM8) (s : State) : Host.Outcome State Fault Refusal :=
  aliasOf 0xD2 s (setmoRM8 (shiftCount s) e s)

/-- `SAR Eb, CL` (R817). -/
def execSarEbCl (e : RM8) (s : State) : Host.Outcome State Fault Refusal :=
  .next (shiftRM8 .sar (shiftCount s) e s)

/-- `ROL Ev, CL` (R811). -/
def execRolEvCl (e : RM16) (s : State) : Host.Outcome State Fault Refusal :=
  .next (shiftRM16 .rol (shiftCount s) e s)

/-- `ROR Ev, CL` (R812). -/
def execRorEvCl (e : RM16) (s : State) : Host.Outcome State Fault Refusal :=
  .next (shiftRM16 .ror (shiftCount s) e s)

/-- `RCL Ev, CL` (R813). -/
def execRclEvCl (e : RM16) (s : State) : Host.Outcome State Fault Refusal :=
  .next (shiftRM16 .rcl (shiftCount s) e s)

/-- `RCR Ev, CL` (R814). -/
def execRcrEvCl (e : RM16) (s : State) : Host.Outcome State Fault Refusal :=
  .next (shiftRM16 .rcr (shiftCount s) e s)

/-- `SHL Ev, CL` (R815). -/
def execShlEvCl (e : RM16) (s : State) : Host.Outcome State Fault Refusal :=
  .next (shiftRM16 .shl (shiftCount s) e s)

/-- `SHR Ev, CL` (R816). -/
def execShrEvCl (e : RM16) (s : State) : Host.Outcome State Fault Refusal :=
  .next (shiftRM16 .shr (shiftCount s) e s)

/-- `SETMOC Ev, CL` (R818). -/
def execSetmocEvCl (e : RM16) (s : State) : Host.Outcome State Fault Refusal :=
  aliasOf 0xD3 s (setmoRM16 (shiftCount s) e s)

/-- `SAR Ev, CL` (R817). -/
def execSarEvCl (e : RM16) (s : State) : Host.Outcome State Fault Refusal :=
  .next (shiftRM16 .sar (shiftCount s) e s)

end Sys2Proof.Machine
end

