-- ==== Sys2Proof/Machine/ProcessorControl.lean ====
section
/-! DEFINITION. Meanings of the processor control instructions and of the prefixes (45 R1100 to R1113). -/

namespace Sys2Proof.Machine

/-! Shared forms. -/

/-- WAIT (R1106): done at once when TEST is asserted, else IP goes back to the instruction, the queue with it (log 14). -/
def waitTest (s : State) : State := if s.params.testAsserted then s else jumpNear s.cpu.ipStart s

/-- HLT (R1108): halted, fetching suspended, the halt bus cycle, then a passive bus (21 R311); its `endOfInstruction` is
the step's and touches none of these. No rule says which address the halt cycle latches and what the data bus shows in it:
free values (log 33). -/
def halt (s : State) : State :=
  let t := suspendFetch (s.mapCpu fun c => { c with halted := true })
  let a := drawAddr t
  let d := drawByte a.2
  ((d.2.openCycle { kind := .halt, access := .code, addr := a.1, data := some d.1 }).holdData none 0).clock .idle none

/-- ESC (R1113): a memory operand is read as a word and discarded; a register operand does nothing. -/
def escape (e : RM16) (s : State) : State :=
  match e with
  | .reg _ => s
  | .mem m => (readRM16 (.mem m) s).2

/-- A prefix byte seen: the prefix state changed, and `IP_lastpfx` the offset of the byte (30 R410). -/
def seePrefix (f : PrefixState → PrefixState) (s : State) : State :=
  s.mapCpu fun c => { c with pfx := f c.pfx, ipLastPfx := c.ip - 1 }

/-- The mask bit of a segment override (10 R141). -/
def PrefixMask.withSeg (m : PrefixMask) (r : Sreg) : PrefixMask :=
  match r with
  | .es => { m with es := true }
  | .cs => { m with cs := true }
  | .ss => { m with ss := true }
  | .ds => { m with ds := true }

/-- The prefix state after a segment override: the last one wins (30 R410). -/
def PrefixState.withSeg (r : Sreg) (p : PrefixState) : PrefixState :=
  { p with mask := p.mask.withSeg r, segOverride := some r }

/-- The prefix state after LOCK (30 R410). -/
def PrefixState.withLock (p : PrefixState) : PrefixState := { p with mask := { p.mask with lock := true } }

/-- The prefix state after a REP prefix: the last one wins (30 R410). -/
def PrefixState.withRep (k : RepKind) (p : PrefixState) : PrefixState :=
  { p with
    mask := match k with
      | .repne => { p.mask with repne := true }
      | .repe => { p.mask with rep := true }
    rep := some k }

/-- A segment override (R1111). -/
def overridePrefix (r : Sreg) : State → State := seePrefix (PrefixState.withSeg r)

/-- LOCK (R1110). -/
def lockPrefix : State → State := seePrefix PrefixState.withLock

/-- A REP prefix sets F1 too (R1112). -/
def repPrefix (k : RepKind) (s : State) : State :=
  (seePrefix (PrefixState.withRep k) s).mapCpu fun c => { c with f1 := true }

/-! Meanings. -/

/-- `CLC` (R1100). -/
def execClc (s : State) : Host.Outcome State Fault Refusal :=
  .next (s.mapFlags fun f => { f with cf := false })

/-- `STC` (R1101). -/
def execStc (s : State) : Host.Outcome State Fault Refusal :=
  .next (s.mapFlags fun f => { f with cf := true })

/-- `CMC` (R1102). -/
def execCmc (s : State) : Host.Outcome State Fault Refusal :=
  .next (s.mapFlags fun f => { f with cf := !f.cf })

/-- `CLD` (R1103). -/
def execCld (s : State) : Host.Outcome State Fault Refusal :=
  .next (s.mapFlags fun f => { f with df := false })

/-- `STD` (R1104). -/
def execStd (s : State) : Host.Outcome State Fault Refusal :=
  .next (s.mapFlags fun f => { f with df := true })

/-- `CLI` (R1105). -/
def execCli (s : State) : Host.Outcome State Fault Refusal :=
  .next (s.mapFlags fun f => { f with ifl := false })

/-- `STI` (R1107). -/
def execSti (s : State) : Host.Outcome State Fault Refusal :=
  .next (s.mapFlags fun f => { f with ifl := true })

/-- `WAIT` (R1106). -/
def execWait (s : State) : Host.Outcome State Fault Refusal :=
  .next (waitTest s)

/-- `HLT` (R1108). -/
def execHlt (s : State) : Host.Outcome State Fault Refusal :=
  .next (halt s)

/-- `NOP (XCHG AX, AX)` (R1109). -/
def execNop (s : State) : Host.Outcome State Fault Refusal :=
  .next (s)

/-- `ESC` (R1113). -/
def execEsc (_code : BitVec 6) (e : RM16) (s : State) : Host.Outcome State Fault Refusal :=
  .next (escape e s)

/-- `ES: (segment override prefix)` (R1111). -/
def execPrefixEs (s : State) : Host.Outcome State Fault Refusal :=
  .next (overridePrefix .es s)

/-- `CS: (segment override prefix)` (R1111). -/
def execPrefixCs (s : State) : Host.Outcome State Fault Refusal :=
  .next (overridePrefix .cs s)

/-- `SS: (segment override prefix)` (R1111). -/
def execPrefixSs (s : State) : Host.Outcome State Fault Refusal :=
  .next (overridePrefix .ss s)

/-- `DS: (segment override prefix)` (R1111). -/
def execPrefixDs (s : State) : Host.Outcome State Fault Refusal :=
  .next (overridePrefix .ds s)

/-- `LOCK (prefix)` (R1110). -/
def execPrefixLock (s : State) : Host.Outcome State Fault Refusal :=
  .next (lockPrefix s)

/-- `LOCK (prefix, alias of F0)` (R455). -/
def execPrefixLockAlias (s : State) : Host.Outcome State Fault Refusal :=
  aliasOf 0xF1 s (lockPrefix s)

/-- `REPNE (prefix)` (R1112). -/
def execPrefixRepne (s : State) : Host.Outcome State Fault Refusal :=
  .next (repPrefix .repne s)

/-- `REP / REPE (prefix)` (R1112). -/
def execPrefixRep (s : State) : Host.Outcome State Fault Refusal :=
  .next (repPrefix .repe s)

end Sys2Proof.Machine
end

