-- ==== Sys2Proof/Machine/RefusedForms.lean ====
section
/-! DEFINITION. Meanings of the forms refused under every `UNDOC_MODE` (30 R456): "their 8088 behaviour is not known from any source
precisely enough". -/

namespace Sys2Proof.Machine

/-- `POP CS (refused)` (R456). -/
def execPopCsRefused (s : State) : Host.Outcome State Fault Refusal :=
  refuseForm 0x0F s

/-- `LEA Gv, reg (refused)` (R456). -/
def execLeaGvRegRefused (_g : Reg16) (_r : Reg16) (s : State) : Host.Outcome State Fault Refusal :=
  refuseForm 0x8D s

/-- `MOV CS, Ew (refused, reg 1)` (R456). -/
def execMovCsEwRefused1 (_e : RM16) (s : State) : Host.Outcome State Fault Refusal :=
  refuseForm 0x8E s

/-- `MOV CS, Ew (refused, reg 5)` (R456). -/
def execMovCsEwRefused5 (_e : RM16) (s : State) : Host.Outcome State Fault Refusal :=
  refuseForm 0x8E s

/-- `8F /1 to /7 (refused)` (R456). -/
def execPop8FRefused (_reg : BitVec 3) (_e : RM16) (s : State) : Host.Outcome State Fault Refusal :=
  refuseForm 0x8F s

/-- `LES Gv, reg (refused)` (R456). -/
def execLesGvRegRefused (_g : Reg16) (_r : Reg16) (s : State) : Host.Outcome State Fault Refusal :=
  refuseForm 0xC4 s

/-- `LDS Gv, reg (refused)` (R456). -/
def execLdsGvRegRefused (_g : Reg16) (_r : Reg16) (s : State) : Host.Outcome State Fault Refusal :=
  refuseForm 0xC5 s

/-- `C6 /1 to /7 (refused)` (R456). -/
def execMovC6Refused (_reg : BitVec 3) (_e : RM8) (_i : Byte) (s : State) : Host.Outcome State Fault Refusal :=
  refuseForm 0xC6 s

/-- `C7 /1 to /7 (refused)` (R456). -/
def execMovC7Refused (_reg : BitVec 3) (_e : RM16) (_i : Word) (s : State) : Host.Outcome State Fault Refusal :=
  refuseForm 0xC7 s

/-- `FE /2 to /7 (refused)` (R456). -/
def execFeRefused (_reg : BitVec 3) (_e : RM8) (s : State) : Host.Outcome State Fault Refusal :=
  refuseForm 0xFE s

/-- `CALL Mp, mod = 11 (refused)` (R456). -/
def execCallMpRegRefused (_r : Reg16) (s : State) : Host.Outcome State Fault Refusal :=
  refuseForm 0xFF s

/-- `JMP Mp, mod = 11 (refused)` (R456). -/
def execJmpMpRegRefused (_r : Reg16) (s : State) : Host.Outcome State Fault Refusal :=
  refuseForm 0xFF s

/-- `FF /7 (refused)` (R456). -/
def execFf7Refused (_e : RM16) (s : State) : Host.Outcome State Fault Refusal :=
  refuseForm 0xFF s

end Sys2Proof.Machine
end

