-- ==== Sys2Proof/Machine/StringOps.lean ====
section
/-! DEFINITION. Meanings of the string instructions and the REP state machine (43 R900 to R914). -/

namespace Sys2Proof.Machine

/-! One element (R900, R901). -/

/-- Reads an element: a byte, zero-extended, or a word. -/
def readElem (wide : Bool) (sr : Sreg) (off : Word) (s : State) : Word × State :=
  if wide then segRead16 sr off s else (zext16 (segRead8 sr off s).1, (segRead8 sr off s).2)

/-- Writes an element. -/
def writeElem (wide : Bool) (sr : Sreg) (off v : Word) (s : State) : State :=
  if wide then segWrite16 sr off v s else segWrite8 sr off (loByte v) s

/-- The accumulator: AL, zero-extended, or AX. -/
def readAcc (wide : Bool) (s : State) : Word := if wide then s.reg16 .ax else zext16 (s.reg8 .al)

/-- Writes the accumulator at the element's width. -/
def writeAcc (wide : Bool) (v : Word) (s : State) : State :=
  if wide then s.setReg16 .ax v else s.setReg8 .al (loByte v)

/-- `SubFlags(a, b, 0)` at the element's width (R903, R904). -/
def elemFlags (wide : Bool) (a b : Word) (f : Flags) : Flags :=
  if wide then subFlags a b false f else subFlags (loByte a) (loByte b) false f

/-- `delta` (R901). -/
def stringDelta (wide : Bool) (s : State) : Word :=
  let n : Word := if wide then 2 else 1
  if s.cpu.flags.df then -n else n

/-- An index register moved by delta (R901). -/
def stepIndex (r : Reg16) (wide : Bool) (s : State) : State := s.setReg16 r (s.reg16 r + stringDelta wide s)

/-- One iteration (R902 to R906); `ovr` is the instruction's segment override, which replaces DS for the source only. -/
def stringIteration (op : StringOp) (wide : Bool) (ovr : Option Sreg) (s : State) : State :=
  let src := ovr.getD .ds
  match op with
  | .movs =>
    let v := readElem wide src (s.reg16 .si) s
    stepIndex .di wide (stepIndex .si wide (writeElem wide .es (v.2.reg16 .di) v.1 v.2))
  | .cmps =>
    let a := readElem wide src (s.reg16 .si) s
    let b := readElem wide .es (a.2.reg16 .di) a.2
    stepIndex .di wide (stepIndex .si wide (b.2.mapFlags (elemFlags wide a.1 b.1)))
  | .scas =>
    let b := readElem wide .es (s.reg16 .di) s
    stepIndex .di wide (b.2.mapFlags (elemFlags wide (readAcc wide b.2) b.1))
  | .lods =>
    let v := readElem wide src (s.reg16 .si) s
    stepIndex .si wide (writeAcc wide v.1 v.2)
  | .stos => stepIndex .di wide (writeElem wide .es (s.reg16 .di) (readAcc wide s) s)

/-! The REP state machine (R910). -/

/-- The state's REP run set. -/
def State.setRepRun (s : State) (r : Option RepRun) : State := s.mapCpu fun c => { c with repRun := r }

/-- The string operation compares, so ZF can end a run. -/
def comparesOp : StringOp → Bool
  | .movs => false | .cmps => true | .scas => true | .lods => false | .stos => false

/-- `stop`: CX has run out, or the comparison ends the run (R910). -/
def repStops (r : RepRun) (s : State) : Bool :=
  s.reg16 .cx == 0 ||
    (comparesOp r.op && (match r.rep with | .repe => !s.cpu.flags.zf | .repne => s.cpu.flags.zf))

/-- `rep_iteration()` (R910): one iteration, CX decremented, and the run ended or left set. -/
def repIteration (r : RepRun) (s : State) : State :=
  let t := stringIteration r.op r.wide r.segOverride s
  let u := t.setReg16 .cx (t.reg16 .cx - 1)
  u.setRepRun (if repStops r u then none else some r)

/-- A string instruction decoded in an instruction step (R910); `endOfInstruction` is the step's. -/
def stringInstr (op : StringOp) (wide : Bool) (s : State) : State :=
  match s.cpu.pfx.rep with
  | none => stringIteration op wide s.cpu.pfx.segOverride s
  | some k =>
    if s.reg16 .cx = 0 then s
    else repIteration
      { op := op, wide := wide, rep := k, segOverride := s.cpu.pfx.segOverride, ipStart := s.cpu.ipStart
        ipLastPfx := s.cpu.ipLastPfx } s

/-! Meanings. -/

/-- `MOVSB` (R902). -/
def execMovsb (s : State) : Host.Outcome State Fault Refusal :=
  .next (stringInstr .movs false s)

/-- `MOVSW` (R902). -/
def execMovsw (s : State) : Host.Outcome State Fault Refusal :=
  .next (stringInstr .movs true s)

/-- `CMPSB` (R903). -/
def execCmpsb (s : State) : Host.Outcome State Fault Refusal :=
  .next (stringInstr .cmps false s)

/-- `CMPSW` (R903). -/
def execCmpsw (s : State) : Host.Outcome State Fault Refusal :=
  .next (stringInstr .cmps true s)

/-- `SCASB` (R904). -/
def execScasb (s : State) : Host.Outcome State Fault Refusal :=
  .next (stringInstr .scas false s)

/-- `SCASW` (R904). -/
def execScasw (s : State) : Host.Outcome State Fault Refusal :=
  .next (stringInstr .scas true s)

/-- `LODSB` (R905). -/
def execLodsb (s : State) : Host.Outcome State Fault Refusal :=
  .next (stringInstr .lods false s)

/-- `LODSW` (R905). -/
def execLodsw (s : State) : Host.Outcome State Fault Refusal :=
  .next (stringInstr .lods true s)

/-- `STOSB` (R906). -/
def execStosb (s : State) : Host.Outcome State Fault Refusal :=
  .next (stringInstr .stos false s)

/-- `STOSW` (R906). -/
def execStosw (s : State) : Host.Outcome State Fault Refusal :=
  .next (stringInstr .stos true s)

end Sys2Proof.Machine
end

