-- ==== Sys2Proof/Machine/Dispatch.lean ====
section
/-! DEFINITION. One arm per constructor of `Instr`: the meaning of each row of spec/opcode_table.json. -/

namespace Sys2Proof.Machine

def exec (i : Instr) (s : State) : Host.Outcome State Fault Refusal :=
  match i with
  | .addEbGb e g => Sys2Proof.Machine.execAddEbGb e g s
  | .addEvGv e g => Sys2Proof.Machine.execAddEvGv e g s
  | .addGbEb g e => Sys2Proof.Machine.execAddGbEb g e s
  | .addGvEv g e => Sys2Proof.Machine.execAddGvEv g e s
  | .addAlIb imm => Sys2Proof.Machine.execAddAlIb imm s
  | .addAxIw imm => Sys2Proof.Machine.execAddAxIw imm s
  | .orEbGb e g => Sys2Proof.Machine.execOrEbGb e g s
  | .orEvGv e g => Sys2Proof.Machine.execOrEvGv e g s
  | .orGbEb g e => Sys2Proof.Machine.execOrGbEb g e s
  | .orGvEv g e => Sys2Proof.Machine.execOrGvEv g e s
  | .orAlIb imm => Sys2Proof.Machine.execOrAlIb imm s
  | .orAxIw imm => Sys2Proof.Machine.execOrAxIw imm s
  | .adcEbGb e g => Sys2Proof.Machine.execAdcEbGb e g s
  | .adcEvGv e g => Sys2Proof.Machine.execAdcEvGv e g s
  | .adcGbEb g e => Sys2Proof.Machine.execAdcGbEb g e s
  | .adcGvEv g e => Sys2Proof.Machine.execAdcGvEv g e s
  | .adcAlIb imm => Sys2Proof.Machine.execAdcAlIb imm s
  | .adcAxIw imm => Sys2Proof.Machine.execAdcAxIw imm s
  | .sbbEbGb e g => Sys2Proof.Machine.execSbbEbGb e g s
  | .sbbEvGv e g => Sys2Proof.Machine.execSbbEvGv e g s
  | .sbbGbEb g e => Sys2Proof.Machine.execSbbGbEb g e s
  | .sbbGvEv g e => Sys2Proof.Machine.execSbbGvEv g e s
  | .sbbAlIb imm => Sys2Proof.Machine.execSbbAlIb imm s
  | .sbbAxIw imm => Sys2Proof.Machine.execSbbAxIw imm s
  | .andEbGb e g => Sys2Proof.Machine.execAndEbGb e g s
  | .andEvGv e g => Sys2Proof.Machine.execAndEvGv e g s
  | .andGbEb g e => Sys2Proof.Machine.execAndGbEb g e s
  | .andGvEv g e => Sys2Proof.Machine.execAndGvEv g e s
  | .andAlIb imm => Sys2Proof.Machine.execAndAlIb imm s
  | .andAxIw imm => Sys2Proof.Machine.execAndAxIw imm s
  | .subEbGb e g => Sys2Proof.Machine.execSubEbGb e g s
  | .subEvGv e g => Sys2Proof.Machine.execSubEvGv e g s
  | .subGbEb g e => Sys2Proof.Machine.execSubGbEb g e s
  | .subGvEv g e => Sys2Proof.Machine.execSubGvEv g e s
  | .subAlIb imm => Sys2Proof.Machine.execSubAlIb imm s
  | .subAxIw imm => Sys2Proof.Machine.execSubAxIw imm s
  | .xorEbGb e g => Sys2Proof.Machine.execXorEbGb e g s
  | .xorEvGv e g => Sys2Proof.Machine.execXorEvGv e g s
  | .xorGbEb g e => Sys2Proof.Machine.execXorGbEb g e s
  | .xorGvEv g e => Sys2Proof.Machine.execXorGvEv g e s
  | .xorAlIb imm => Sys2Proof.Machine.execXorAlIb imm s
  | .xorAxIw imm => Sys2Proof.Machine.execXorAxIw imm s
  | .cmpEbGb e g => Sys2Proof.Machine.execCmpEbGb e g s
  | .cmpEvGv e g => Sys2Proof.Machine.execCmpEvGv e g s
  | .cmpGbEb g e => Sys2Proof.Machine.execCmpGbEb g e s
  | .cmpGvEv g e => Sys2Proof.Machine.execCmpGvEv g e s
  | .cmpAlIb imm => Sys2Proof.Machine.execCmpAlIb imm s
  | .cmpAxIw imm => Sys2Proof.Machine.execCmpAxIw imm s
  | .incR16 r => Sys2Proof.Machine.execIncR16 r s
  | .decR16 r => Sys2Proof.Machine.execDecR16 r s
  | .pushR16 r => Sys2Proof.Machine.execPushR16 r s
  | .popR16 r => Sys2Proof.Machine.execPopR16 r s
  | .jo rel => Sys2Proof.Machine.execJo rel s
  | .jno rel => Sys2Proof.Machine.execJno rel s
  | .jb rel => Sys2Proof.Machine.execJb rel s
  | .jnb rel => Sys2Proof.Machine.execJnb rel s
  | .jz rel => Sys2Proof.Machine.execJz rel s
  | .jnz rel => Sys2Proof.Machine.execJnz rel s
  | .jbe rel => Sys2Proof.Machine.execJbe rel s
  | .ja rel => Sys2Proof.Machine.execJa rel s
  | .js rel => Sys2Proof.Machine.execJs rel s
  | .jns rel => Sys2Proof.Machine.execJns rel s
  | .jp rel => Sys2Proof.Machine.execJp rel s
  | .jnp rel => Sys2Proof.Machine.execJnp rel s
  | .jl rel => Sys2Proof.Machine.execJl rel s
  | .jge rel => Sys2Proof.Machine.execJge rel s
  | .jle rel => Sys2Proof.Machine.execJle rel s
  | .jg rel => Sys2Proof.Machine.execJg rel s
  | .jccAlias cc rel => Sys2Proof.Machine.execJccAlias cc rel s
  | .addEbIb e imm => Sys2Proof.Machine.execAddEbIb e imm s
  | .orEbIb e imm => Sys2Proof.Machine.execOrEbIb e imm s
  | .adcEbIb e imm => Sys2Proof.Machine.execAdcEbIb e imm s
  | .sbbEbIb e imm => Sys2Proof.Machine.execSbbEbIb e imm s
  | .andEbIb e imm => Sys2Proof.Machine.execAndEbIb e imm s
  | .subEbIb e imm => Sys2Proof.Machine.execSubEbIb e imm s
  | .xorEbIb e imm => Sys2Proof.Machine.execXorEbIb e imm s
  | .cmpEbIb e imm => Sys2Proof.Machine.execCmpEbIb e imm s
  | .addEvIw e imm => Sys2Proof.Machine.execAddEvIw e imm s
  | .orEvIw e imm => Sys2Proof.Machine.execOrEvIw e imm s
  | .adcEvIw e imm => Sys2Proof.Machine.execAdcEvIw e imm s
  | .sbbEvIw e imm => Sys2Proof.Machine.execSbbEvIw e imm s
  | .andEvIw e imm => Sys2Proof.Machine.execAndEvIw e imm s
  | .subEvIw e imm => Sys2Proof.Machine.execSubEvIw e imm s
  | .xorEvIw e imm => Sys2Proof.Machine.execXorEvIw e imm s
  | .cmpEvIw e imm => Sys2Proof.Machine.execCmpEvIw e imm s
  | .addEbIbAlias e imm => Sys2Proof.Machine.execAddEbIbAlias e imm s
  | .orEbIbAlias e imm => Sys2Proof.Machine.execOrEbIbAlias e imm s
  | .adcEbIbAlias e imm => Sys2Proof.Machine.execAdcEbIbAlias e imm s
  | .sbbEbIbAlias e imm => Sys2Proof.Machine.execSbbEbIbAlias e imm s
  | .andEbIbAlias e imm => Sys2Proof.Machine.execAndEbIbAlias e imm s
  | .subEbIbAlias e imm => Sys2Proof.Machine.execSubEbIbAlias e imm s
  | .xorEbIbAlias e imm => Sys2Proof.Machine.execXorEbIbAlias e imm s
  | .cmpEbIbAlias e imm => Sys2Proof.Machine.execCmpEbIbAlias e imm s
  | .addEvIbSx e imm => Sys2Proof.Machine.execAddEvIbSx e imm s
  | .orEvIbSx e imm => Sys2Proof.Machine.execOrEvIbSx e imm s
  | .adcEvIbSx e imm => Sys2Proof.Machine.execAdcEvIbSx e imm s
  | .sbbEvIbSx e imm => Sys2Proof.Machine.execSbbEvIbSx e imm s
  | .andEvIbSx e imm => Sys2Proof.Machine.execAndEvIbSx e imm s
  | .subEvIbSx e imm => Sys2Proof.Machine.execSubEvIbSx e imm s
  | .xorEvIbSx e imm => Sys2Proof.Machine.execXorEvIbSx e imm s
  | .cmpEvIbSx e imm => Sys2Proof.Machine.execCmpEvIbSx e imm s
  | .testEbGb e g => Sys2Proof.Machine.execTestEbGb e g s
  | .testEvGv e g => Sys2Proof.Machine.execTestEvGv e g s
  | .xchgEbGb e g => Sys2Proof.Machine.execXchgEbGb e g s
  | .xchgEvGv e g => Sys2Proof.Machine.execXchgEvGv e g s
  | .movEbGb e g => Sys2Proof.Machine.execMovEbGb e g s
  | .movEvGv e g => Sys2Proof.Machine.execMovEvGv e g s
  | .movGbEb g e => Sys2Proof.Machine.execMovGbEb g e s
  | .movGvEv g e => Sys2Proof.Machine.execMovGvEv g e s
  | .movEwSw e sr => Sys2Proof.Machine.execMovEwSw e sr s
  | .movEwSwAlias e sr => Sys2Proof.Machine.execMovEwSwAlias e sr s
  | .leaGvM g m => Sys2Proof.Machine.execLeaGvM g m s
  | .leaGvRegRefused g r => Sys2Proof.Machine.execLeaGvRegRefused g r s
  | .movEsEw e => Sys2Proof.Machine.execMovEsEw e s
  | .movCsEwRefused1 e => Sys2Proof.Machine.execMovCsEwRefused1 e s
  | .movSsEw e => Sys2Proof.Machine.execMovSsEw e s
  | .movDsEw e => Sys2Proof.Machine.execMovDsEw e s
  | .movEsEwAlias e => Sys2Proof.Machine.execMovEsEwAlias e s
  | .movCsEwRefused5 e => Sys2Proof.Machine.execMovCsEwRefused5 e s
  | .movSsEwAlias e => Sys2Proof.Machine.execMovSsEwAlias e s
  | .movDsEwAlias e => Sys2Proof.Machine.execMovDsEwAlias e s
  | .popEv e => Sys2Proof.Machine.execPopEv e s
  | .pop8FRefused reg e => Sys2Proof.Machine.execPop8FRefused reg e s
  | .xchgAxR16 r => Sys2Proof.Machine.execXchgAxR16 r s
  | .callPtr off seg => Sys2Proof.Machine.execCallPtr off seg s
  | .movAlMoffs off => Sys2Proof.Machine.execMovAlMoffs off s
  | .movAxMoffs off => Sys2Proof.Machine.execMovAxMoffs off s
  | .movMoffsAl off => Sys2Proof.Machine.execMovMoffsAl off s
  | .movMoffsAx off => Sys2Proof.Machine.execMovMoffsAx off s
  | .testAlIb imm => Sys2Proof.Machine.execTestAlIb imm s
  | .testAxIw imm => Sys2Proof.Machine.execTestAxIw imm s
  | .movR8Ib r imm => Sys2Proof.Machine.execMovR8Ib r imm s
  | .movR16Iw r imm => Sys2Proof.Machine.execMovR16Iw r imm s
  | .retIwAlias imm => Sys2Proof.Machine.execRetIwAlias imm s
  | .retIw imm => Sys2Proof.Machine.execRetIw imm s
  | .retfIwAlias imm => Sys2Proof.Machine.execRetfIwAlias imm s
  | .retfIw imm => Sys2Proof.Machine.execRetfIw imm s
  | .intIb imm => Sys2Proof.Machine.execIntIb imm s
  | .lesGvMp g m => Sys2Proof.Machine.execLesGvMp g m s
  | .lesGvRegRefused g r => Sys2Proof.Machine.execLesGvRegRefused g r s
  | .ldsGvMp g m => Sys2Proof.Machine.execLdsGvMp g m s
  | .ldsGvRegRefused g r => Sys2Proof.Machine.execLdsGvRegRefused g r s
  | .movEbIb e imm => Sys2Proof.Machine.execMovEbIb e imm s
  | .movC6Refused reg e imm => Sys2Proof.Machine.execMovC6Refused reg e imm s
  | .movEvIw e imm => Sys2Proof.Machine.execMovEvIw e imm s
  | .movC7Refused reg e imm => Sys2Proof.Machine.execMovC7Refused reg e imm s
  | .rolEb1 e => Sys2Proof.Machine.execRolEb1 e s
  | .rorEb1 e => Sys2Proof.Machine.execRorEb1 e s
  | .rclEb1 e => Sys2Proof.Machine.execRclEb1 e s
  | .rcrEb1 e => Sys2Proof.Machine.execRcrEb1 e s
  | .shlEb1 e => Sys2Proof.Machine.execShlEb1 e s
  | .shrEb1 e => Sys2Proof.Machine.execShrEb1 e s
  | .setmoEb1 e => Sys2Proof.Machine.execSetmoEb1 e s
  | .sarEb1 e => Sys2Proof.Machine.execSarEb1 e s
  | .rolEv1 e => Sys2Proof.Machine.execRolEv1 e s
  | .rorEv1 e => Sys2Proof.Machine.execRorEv1 e s
  | .rclEv1 e => Sys2Proof.Machine.execRclEv1 e s
  | .rcrEv1 e => Sys2Proof.Machine.execRcrEv1 e s
  | .shlEv1 e => Sys2Proof.Machine.execShlEv1 e s
  | .shrEv1 e => Sys2Proof.Machine.execShrEv1 e s
  | .setmoEv1 e => Sys2Proof.Machine.execSetmoEv1 e s
  | .sarEv1 e => Sys2Proof.Machine.execSarEv1 e s
  | .rolEbCl e => Sys2Proof.Machine.execRolEbCl e s
  | .rorEbCl e => Sys2Proof.Machine.execRorEbCl e s
  | .rclEbCl e => Sys2Proof.Machine.execRclEbCl e s
  | .rcrEbCl e => Sys2Proof.Machine.execRcrEbCl e s
  | .shlEbCl e => Sys2Proof.Machine.execShlEbCl e s
  | .shrEbCl e => Sys2Proof.Machine.execShrEbCl e s
  | .setmocEbCl e => Sys2Proof.Machine.execSetmocEbCl e s
  | .sarEbCl e => Sys2Proof.Machine.execSarEbCl e s
  | .rolEvCl e => Sys2Proof.Machine.execRolEvCl e s
  | .rorEvCl e => Sys2Proof.Machine.execRorEvCl e s
  | .rclEvCl e => Sys2Proof.Machine.execRclEvCl e s
  | .rcrEvCl e => Sys2Proof.Machine.execRcrEvCl e s
  | .shlEvCl e => Sys2Proof.Machine.execShlEvCl e s
  | .shrEvCl e => Sys2Proof.Machine.execShrEvCl e s
  | .setmocEvCl e => Sys2Proof.Machine.execSetmocEvCl e s
  | .sarEvCl e => Sys2Proof.Machine.execSarEvCl e s
  | .aamIb imm => Sys2Proof.Machine.execAamIb imm s
  | .aadIb imm => Sys2Proof.Machine.execAadIb imm s
  | .esc code e => Sys2Proof.Machine.execEsc code e s
  | .loopnz rel => Sys2Proof.Machine.execLoopnz rel s
  | .loopz rel => Sys2Proof.Machine.execLoopz rel s
  | .loop rel => Sys2Proof.Machine.execLoop rel s
  | .jcxz rel => Sys2Proof.Machine.execJcxz rel s
  | .inAlIb imm => Sys2Proof.Machine.execInAlIb imm s
  | .inAxIb imm => Sys2Proof.Machine.execInAxIb imm s
  | .outIbAl imm => Sys2Proof.Machine.execOutIbAl imm s
  | .outIbAx imm => Sys2Proof.Machine.execOutIbAx imm s
  | .callRel16 rel => Sys2Proof.Machine.execCallRel16 rel s
  | .jmpRel16 rel => Sys2Proof.Machine.execJmpRel16 rel s
  | .jmpPtr off seg => Sys2Proof.Machine.execJmpPtr off seg s
  | .jmpRel8 rel => Sys2Proof.Machine.execJmpRel8 rel s
  | .testEbIb e imm => Sys2Proof.Machine.execTestEbIb e imm s
  | .testEbIbAlias e imm => Sys2Proof.Machine.execTestEbIbAlias e imm s
  | .notEb e => Sys2Proof.Machine.execNotEb e s
  | .negEb e => Sys2Proof.Machine.execNegEb e s
  | .mulEb e => Sys2Proof.Machine.execMulEb e s
  | .imulEb e => Sys2Proof.Machine.execImulEb e s
  | .divEb e => Sys2Proof.Machine.execDivEb e s
  | .idivEb e => Sys2Proof.Machine.execIdivEb e s
  | .testEvIw e imm => Sys2Proof.Machine.execTestEvIw e imm s
  | .testEvIwAlias e imm => Sys2Proof.Machine.execTestEvIwAlias e imm s
  | .notEv e => Sys2Proof.Machine.execNotEv e s
  | .negEv e => Sys2Proof.Machine.execNegEv e s
  | .mulEv e => Sys2Proof.Machine.execMulEv e s
  | .imulEv e => Sys2Proof.Machine.execImulEv e s
  | .divEv e => Sys2Proof.Machine.execDivEv e s
  | .idivEv e => Sys2Proof.Machine.execIdivEv e s
  | .incEb e => Sys2Proof.Machine.execIncEb e s
  | .decEb e => Sys2Proof.Machine.execDecEb e s
  | .feRefused reg e => Sys2Proof.Machine.execFeRefused reg e s
  | .incEv e => Sys2Proof.Machine.execIncEv e s
  | .decEv e => Sys2Proof.Machine.execDecEv e s
  | .callEv e => Sys2Proof.Machine.execCallEv e s
  | .callMp m => Sys2Proof.Machine.execCallMp m s
  | .jmpEv e => Sys2Proof.Machine.execJmpEv e s
  | .jmpMp m => Sys2Proof.Machine.execJmpMp m s
  | .pushEv e => Sys2Proof.Machine.execPushEv e s
  | .callMpRegRefused r => Sys2Proof.Machine.execCallMpRegRefused r s
  | .jmpMpRegRefused r => Sys2Proof.Machine.execJmpMpRegRefused r s
  | .ff7Refused e => Sys2Proof.Machine.execFf7Refused e s
  | .pushEs => Sys2Proof.Machine.execPushEs s
  | .popEs => Sys2Proof.Machine.execPopEs s
  | .pushCs => Sys2Proof.Machine.execPushCs s
  | .popCsRefused => Sys2Proof.Machine.execPopCsRefused s
  | .pushSs => Sys2Proof.Machine.execPushSs s
  | .popSs => Sys2Proof.Machine.execPopSs s
  | .pushDs => Sys2Proof.Machine.execPushDs s
  | .popDs => Sys2Proof.Machine.execPopDs s
  | .prefixEs => Sys2Proof.Machine.execPrefixEs s
  | .prefixCs => Sys2Proof.Machine.execPrefixCs s
  | .prefixSs => Sys2Proof.Machine.execPrefixSs s
  | .prefixDs => Sys2Proof.Machine.execPrefixDs s
  | .daa => Sys2Proof.Machine.execDaa s
  | .das => Sys2Proof.Machine.execDas s
  | .aaa => Sys2Proof.Machine.execAaa s
  | .aas => Sys2Proof.Machine.execAas s
  | .nop => Sys2Proof.Machine.execNop s
  | .cbw => Sys2Proof.Machine.execCbw s
  | .cwd => Sys2Proof.Machine.execCwd s
  | .wait => Sys2Proof.Machine.execWait s
  | .pushf => Sys2Proof.Machine.execPushf s
  | .popf => Sys2Proof.Machine.execPopf s
  | .sahf => Sys2Proof.Machine.execSahf s
  | .lahf => Sys2Proof.Machine.execLahf s
  | .movsb => Sys2Proof.Machine.execMovsb s
  | .movsw => Sys2Proof.Machine.execMovsw s
  | .cmpsb => Sys2Proof.Machine.execCmpsb s
  | .cmpsw => Sys2Proof.Machine.execCmpsw s
  | .stosb => Sys2Proof.Machine.execStosb s
  | .stosw => Sys2Proof.Machine.execStosw s
  | .lodsb => Sys2Proof.Machine.execLodsb s
  | .lodsw => Sys2Proof.Machine.execLodsw s
  | .scasb => Sys2Proof.Machine.execScasb s
  | .scasw => Sys2Proof.Machine.execScasw s
  | .retAlias => Sys2Proof.Machine.execRetAlias s
  | .ret => Sys2Proof.Machine.execRet s
  | .retfAlias => Sys2Proof.Machine.execRetfAlias s
  | .retf => Sys2Proof.Machine.execRetf s
  | .int3 => Sys2Proof.Machine.execInt3 s
  | .into => Sys2Proof.Machine.execInto s
  | .iret => Sys2Proof.Machine.execIret s
  | .salc => Sys2Proof.Machine.execSalc s
  | .xlat => Sys2Proof.Machine.execXlat s
  | .inAlDx => Sys2Proof.Machine.execInAlDx s
  | .inAxDx => Sys2Proof.Machine.execInAxDx s
  | .outDxAl => Sys2Proof.Machine.execOutDxAl s
  | .outDxAx => Sys2Proof.Machine.execOutDxAx s
  | .prefixLock => Sys2Proof.Machine.execPrefixLock s
  | .prefixRepne => Sys2Proof.Machine.execPrefixRepne s
  | .prefixRep => Sys2Proof.Machine.execPrefixRep s
  | .hlt => Sys2Proof.Machine.execHlt s
  | .cmc => Sys2Proof.Machine.execCmc s
  | .clc => Sys2Proof.Machine.execClc s
  | .stc => Sys2Proof.Machine.execStc s
  | .cli => Sys2Proof.Machine.execCli s
  | .sti => Sys2Proof.Machine.execSti s
  | .cld => Sys2Proof.Machine.execCld s
  | .std => Sys2Proof.Machine.execStd s
  | .prefixLockAlias => Sys2Proof.Machine.execPrefixLockAlias s

end Sys2Proof.Machine
end

