-- ==== Sys2Proof/Machine/Fetch.lean ====
section
/-! DEFINITION. Fetching an instruction (30 R428): its bytes are taken from the queue one by one until they decode. -/

namespace Sys2Proof.Machine

/-- Takes bytes until they decode; n is how many more may follow. -/
def fetchLoop : Nat → List Byte → State → Option (Instr × State)
  | 0, _, _ => none
  | n + 1, bs, s =>
    let r := fetch8 s
    match decode (bs ++ [r.1]) with
    | .ok (i, _) => some (i, r.2)
    | .error _ => fetchLoop n (bs ++ [r.1]) r.2

/-- The next row of the opcode table in the instruction stream, a prefix byte being a row of its own; `none` never happens,
no row being longer than six bytes (30 R400, 60 R1202). -/
def fetchInstr (s : State) : Option (Instr × State) := fetchLoop maxInstrBytes [] s

/-- The row is a prefix, so the instruction goes on after it (30 R410). -/
def isPrefix (i : Instr) : Bool :=
  i == .prefixEs || i == .prefixCs || i == .prefixSs || i == .prefixDs || i == .prefixLock || i == .prefixLockAlias ||
    i == .prefixRepne || i == .prefixRep

end Sys2Proof.Machine
end

