-- ==== Sys2Proof/Machine/Interrupts.lean ====
section
/-! DEFINITION. Interrupts at instruction boundaries (60 R1230 to R1234), the end of an instruction (31 R503), REP steps
(43 R911, R912) and halted slices (31 R531). -/

namespace Sys2Proof.Machine

/-- The outcome type of the model's steps. -/
abbrev StepResult := Host.Outcome State Fault Refusal

/-- INTR is recognised: IF = 1 and the PIC's INT output is 1 (60 R1231). -/
def intrDue (s : State) : Bool := s.cpu.flags.ifl && s.dev.pic.int

/-- `entry_due` (60 R1230). -/
def entryDue (s : State) : Bool := !s.cpu.inhibit && (s.cpu.nmiLatch || intrDue s || s.cpu.trapPending)

/-- One INTA bus cycle (21 R310), v on the data bus. No rule says which address it latches: a free value (log 33). -/
def intaCycle (v : Byte) (s : State) : State :=
  let a := drawAddr s
  (a.2.openCycle { kind := .inta, access := .code, addr := a.1, data := none }).holdData (some v) 0

/-- `acknowledge()` (60 R1233): two INTA cycles, both recorded, the vector on the second; `none` where the PIC's form is
refused (61 R1341). The first carries no data (21 R310), and the byte the data bus then shows is a free value (log 33).
The EU has its own clocks before and after the pair, with fetching not suspended: 21 R330 names memory and IO accesses only, and
R329 not the point at which the entry is decided (the model's choice, log 39). -/
def acknowledge (s : State) : Option (Byte × State) :=
  match s.dev.pic.acknowledge with
  | none => none
  | some (v, p) =>
    let d := drawByte (biuTurn s)
    let t := (intaCycle d.1 d.2).record .intaFirst
    let u := (intaCycle v t).record (.intaVector v)
    some (v, biuTurn (u.mapPic fun _ => p))

/-- `boundary_entry` (60 R1230): NMI, then INTR, then the single-step trap. -/
def boundaryEntry (s : State) : StepResult :=
  if s.cpu.nmiLatch then .next (enter 2 s.cpu.ip (s.mapCpu fun c => { c with nmiLatch := false }))
  else if intrDue s then
    match acknowledge s with
    | some (v, t) => .next (enter v t.cpu.ip t)
    | none => .refused .acknowledgeForm
  else .next (enter 1 s.cpu.ip (s.mapCpu fun c => { c with trapPending := false }))

/-- The instruction sets the one-instruction inhibit: STI, 8E MOV S,E and POP S (10 R143, 31 R503). -/
def setsInhibit (i : Instr) : Bool :=
  match i with
  | .sti => true
  | .movEsEw _ => true
  | .movSsEw _ => true
  | .movDsEw _ => true
  | .movEsEwAlias _ => true
  | .movSsEwAlias _ => true
  | .movDsEwAlias _ => true
  | .popEs => true
  | .popSs => true
  | .popDs => true
  | _ => false

/-- The prefix state back to none (31 R503). -/
def clearPrefixes (s : State) : State := s.mapCpu fun c => { c with pfx := PrefixState.none, f1 := false }

/-- `end_of_instruction()` (31 R503). -/
def endOfInstruction (inhibits : Bool) (s : State) : State :=
  clearPrefixes (s.mapCpu fun c => { c with trapPending := c.tempTF, inhibit := inhibits })

/-- `instruction_step` up to the first byte (31 R502, 30 R410): an inhibited boundary is consumed, TF captured, the prefix
state and the start offset set. `IP_lastpfx`, undefined until a prefix is seen (10 R113), keeps the value of an earlier
instruction, and nothing reads it then (the model's choice, log 37). -/
def beginInstruction (s : State) : State :=
  s.mapCpu fun c =>
    { c with
      inhibit := false
      trapPending := if c.inhibit then false else c.trapPending
      tempTF := c.flags.tf
      pfx := PrefixState.none
      f1 := false
      ipStart := c.ip }

/-- After an instruction's meaning: its end, unless a REP run goes on (43 R910). -/
def finishInstruction (inhibits : Bool) (s : State) : State :=
  if s.cpu.repRun.isSome then s else endOfInstruction inhibits s

/-! REP steps. -/

/-- A pending interrupt at the top of an iteration (43 R911). -/
def repInterrupted (s : State) : Bool :=
  s.cpu.nmiLatch || intrDue s || (s.params.repTfPerIteration && s.cpu.tempTF)

/-- The state in which the entry of an interrupted run is taken: IP back at the prefix, the queue flushed, the run over
(43 R912). -/
def rewindRep (r : RepRun) (s : State) : State :=
  let t := jumpNear (match s.params.repResume with | .lastPrefix => r.ipLastPfx | .firstPrefix => r.ipStart) s
  let u := clearPrefixes (t.setRepRun none)
  if s.params.repTfPerIteration && s.cpu.tempTF then u.mapCpu fun c => { c with trapPending := true } else u

/-- `rep_step` (43 R911): an interruption, or one more iteration. -/
def repStep (r : RepRun) (s : State) : StepResult :=
  if repInterrupted s then boundaryEntry (rewindRep r s)
  else .next (finishInstruction false (repIteration r s))

/-! The halted state. -/

/-- A halted slice (31 R531): woken by an NMI or a recognised INTR, else nothing changes. -/
def haltedSlice (s : State) : StepResult :=
  if s.cpu.nmiLatch || intrDue s then boundaryEntry (resumeFetch (s.mapCpu fun c => { c with halted := false }))
  else .next s

end Sys2Proof.Machine
end

