-- ==== Sys2Proof/Machine/Sequencer.lean ====
section
/-! DEFINITION. The CPU step (31 R501 to R503): an interrupt entry, one whole instruction, one REP iteration or one halted
slice. -/

namespace Sys2Proof.Machine

/-- How many rows of one instruction a step of the model reads: more than a code segment and the queue hold. A longer run of
prefixes goes on in the next step (30 R411: no length limit; log 13). -/
def prefixFuel : Nat := 65536 + 16

/-- The prefix loop and the instruction it ends in (31 R502, 30 R410): rows are fetched and executed until one is no
prefix. -/
def runInstruction : Nat → State → StepResult
  | 0, s => .next (s.setDecoding true)
  | n + 1, s =>
    match fetchInstr s with
    | none => .fault .truncatedStream
    | some (i, t) =>
      match exec i t with
      | .next u => if isPrefix i then runInstruction n u else .next (finishInstruction (setsInhibit i) u)
      | .fault f => .fault f
      | .refused r => .refused r

/-- `instruction_step` (31 R502). -/
def instructionStep (s : State) : StepResult := runInstruction prefixFuel (beginInstruction s)

/-- The prefix loop of an instruction goes on: no boundary lies between its rows (30 R411). -/
def continueDecoding (s : State) : StepResult := runInstruction prefixFuel (s.setDecoding false)

/-- `cpu_step` (31 R501): a marked state is stuck, answering its mark. -/
def cpuStep (s : State) : StepResult :=
  match s.marks.fault with
  | some f => .fault f
  | none =>
    match s.marks.refusal with
    | some r => .refused r
    | none =>
      if s.cpu.halted then haltedSlice s
      else match s.cpu.repRun with
        | some r => repStep r s
        | none =>
          if s.cpu.decoding then continueDecoding s
          else if entryDue s then boundaryEntry s
          else instructionStep s

/-- Bytes stored from an offset of a segment base on, by the host (70 R1531): ROM flags and the cap do not apply. -/
def loadBytes (base : Word) : Word → List Byte → Memory → Memory
  | _, [], m => m
  | off, b :: bs, m => loadBytes base (off + 1) bs (memSet m (lin base off).toNat b)

/-- The host's load of a program at CS:IP: its bytes in memory, and everything set that makes the next step fetch the first
of them: the queue empty with PFP = IP, no fetch in progress, fetching not suspended, no mark, no halted state, no REP run, no
prefixes read so far, a due entry passed over, and the EU's own clocks of that step scheduled as 0, an input without which no
fetch can be evaluated (log 11). -/
def placeAtFetch (bytes : List Byte) (s : State) : State :=
  { s with
    cpu := { s.cpu with halted := false, repRun := none, decoding := false, inhibit := s.cpu.inhibit || entryDue s }
    biu := { s.biu with queue := [], fetching := none, pfp := s.cpu.ip, fetchSuspended := false }
    bus := { s.bus with mem := loadBytes s.cpu.segs.cs s.cpu.ip bytes s.bus.mem }
    env := { s.env with euClocks := List.replicate 64 0 }
    marks := { fault := none, refusal := none } }

end Sys2Proof.Machine
end

