-- ==== Sys2Proof/Machine/Step.lean ====
section
/-! DEFINITION. One machine step: a CPU step, then a scheduler step (31 R500). -/

namespace Sys2Proof.Machine

/-- `machine_step` (31 R500): the devices run when the CPU step is over, so not while an instruction's prefixes go on in the
next step (log 13). -/
def step (s : State) : Host.Outcome State Fault Refusal :=
  match cpuStep s with
  | .next t => .next (afterCpuStep t)
  | .fault f => .fault f
  | .refused r => .refused r

/-- The state with a table word's instruction placed where the next step fetches (log 11, log 12). -/
def State.withFetchWord (s : State) (nbits w : Nat) : State := placeAtFetch (tableStream nbits w) s

end Sys2Proof.Machine
end

