-- ==== Sys2Proof/Machine/Record.lean ====
section
/-! DEFINITION. The decoder's instruction record (30 R404): the row decoded with its prefixes, its address, its size and its
flags. -/

namespace Sys2Proof.Machine

/-- Why no record is made: the bytes end inside the instruction, or F1 stands among the prefixes under `UNDOC_MODE = refuse`
(30 R410, R457). -/
inductive RecordError where
  | truncated
  | undocumentedPrefix
  deriving DecidableEq, Repr

/-- The instruction record (30 R404). The mnemonic and the operands are those of `instr`; the prefix bitmask and the segment
override are in `prefixes`. -/
structure InstrRecord where
  opcode : Byte
  instr : Instr
  prefixes : PrefixState
  addr : Word
  size : Nat
  hasModrm : Bool
  usesMemory : Bool
  relativeJump : Bool
  deriving DecidableEq, Repr

/-- What a prefix byte does to the prefix state; `none` for a byte that is no prefix (30 R410). -/
def prefixEffect (b : Byte) : Option (PrefixState → PrefixState) :=
  if b = 0x26 then some (.withSeg .es) else if b = 0x2E then some (.withSeg .cs) else if b = 0x36 then some (.withSeg .ss)
  else if b = 0x3E then some (.withSeg .ds) else if b = 0xF0 ∨ b = 0xF1 then some .withLock
  else if b = 0xF2 then some (.withRep .repne) else if b = 0xF3 then some (.withRep .repe) else none

/-- An operand named by the instruction lies in memory: a ModR/M operand that is no register, or a direct offset (30 R403, R420,
R427). R404 does not say what the flag takes in: the model's choice, log 47. -/
def usesMemory (op b1 : Byte) : Bool := (hasModrm op && modOf b1 != 3) || (0xA0 ≤ op && op ≤ 0xA3)

/-- The instruction has a relative operand: Jcc and its aliases, LOOPcc, JCXZ, CALL rel16, JMP rel16 and JMP rel8 (30 R403, R425).
R404 does not say whether CALL counts as a jump: the model's choice, log 47. -/
def isRelativeJump (op : Byte) : Bool :=
  (0x60 ≤ op && op ≤ 0x7F) || (0xE0 ≤ op && op ≤ 0xE3) || op == 0xE8 || op == 0xE9 || op == 0xEB

/-- The record of the instruction at offset `addr`, p and n being the prefix state and the number of the prefix bytes before these
bytes: the prefix loop, then one row of the table (30 R410, R428). The size counts all bytes consumed, prefixes included. -/
def decodeRecordFrom (mode : UndocMode) (addr : Word) (p : PrefixState) (n : Nat) :
    List Byte → Except RecordError (InstrRecord × List Byte)
  | [] => .error .truncated
  | b :: bs =>
    if b = 0xF1 ∧ mode = .refuse then .error .undocumentedPrefix
    else match prefixEffect b with
      | some f => decodeRecordFrom mode addr (f p) (n + 1) bs
      | none =>
        match decode (b :: bs) with
        | .error _ => .error .truncated
        | .ok (i, rest) => .ok
          ({ opcode := b, instr := i, prefixes := p, addr := addr, size := n + (bs.length + 1 - rest.length)
             hasModrm := hasModrm b, usesMemory := usesMemory b (bs.headD 0), relativeJump := isRelativeJump b }, rest)

/-- The record of the instruction that starts at offset `addr`, its `IP_start`, and the bytes after it (30 R404, 10 R113). -/
def decodeRecord (mode : UndocMode) (addr : Word) (bs : List Byte) : Except RecordError (InstrRecord × List Byte) :=
  decodeRecordFrom mode addr PrefixState.none 0 bs

end Sys2Proof.Machine
end

