-- ==== Sys2Proof/Machine/HostOps.lean ====
section
/-! DEFINITION. The host's operations on the machine (70 R1500, R1512, R1530, R1531). They happen between machine steps and
are no part of `step`. -/

namespace Sys2Proof.Machine

/-! The 28-byte register layout (70 R1530). -/

/-- The bytes of a general register: free ones where it is unwritten. -/
def storeReg (r : Reg16) (s : State) : List Byte × State :=
  if s.cpu.written.get r then (wordBytes (s.reg16 r), s)
  else (wordBytes (drawWord s).1, (drawWord s).2)

/-- The bytes of a list of general registers, in order. -/
def storeRegList : List Reg16 → State → List Byte × State
  | [], s => ([], s)
  | r :: rs, s => ((storeReg r s).1 ++ (storeRegList rs (storeReg r s).2).1, (storeRegList rs (storeReg r s).2).2)

/-- `store(regs)`: AX BX CX DX SS SP FLAGS IP CS DS ES BP SI DI, low byte first. -/
def storeRegs (s : State) : List Byte × State :=
  let a := storeRegList [.ax, .bx, .cx, .dx] s
  let b := storeRegList [.sp] a.2
  let c := storeRegList [.bp, .si, .di] b.2
  (a.1 ++ wordBytes (s.seg .ss) ++ b.1 ++ wordBytes s.cpu.flags.image ++ wordBytes s.cpu.ip ++ wordBytes (s.seg .cs) ++
    wordBytes (s.seg .ds) ++ wordBytes (s.seg .es) ++ c.1, c.2)

/-- Word k of a register buffer; a missing byte counts as 0. -/
def bufWord (buf : List Byte) (k : Nat) : Word := mkWord (buf.getD (2 * k + 1) 0) (buf.getD (2 * k) 0)

/-- `load(buf)`: every register and the defined FLAGS bits; every general register is written; the queue starts at the
loaded IP (70 R1512). -/
def loadRegs (buf : List Byte) (s : State) : State :=
  let w := bufWord buf
  { s with
    cpu := { s.cpu with
      regs := { ax := w 0, bx := w 1, cx := w 2, dx := w 3, sp := w 5, bp := w 11, si := w 12, di := w 13 }
      written := { ax := true, bx := true, cx := true, dx := true, sp := true, bp := true, si := true, di := true }
      segs := { ss := w 4, cs := w 8, ds := w 9, es := w 10 }
      flags := flagsOfWord (w 6)
      ip := w 7 }
    biu := { s.biu with queue := [], fetching := none, pfp := w 7 } }

/-! Reset and start. -/

/-- The devices after a reset (70 R1506). The environment's lines are not reset, so the PIC's IR1 to IR7 inputs keep their
levels; `edge_prev`, a draw in the spec, is 0 (log 5), so that a line held high across the reset is a rising edge at the
first sample, whose request ICW1 clears (the model's choice, log 34). -/
def resetDevices (s : State) : Devices := { Devices.reset with pic := { Pic.reset with ir := s.env.ir &&& 0xFE } }

/-- Reset (70 R1500): CPU, BIU and devices at their reset values, history and marks empty; memory, the machine descriptor,
the parameters and the environment's inputs are unchanged. -/
def resetMachine (s : State) : State :=
  { s with
    cpu := Cpu.reset, biu := Biu.reset, dev := resetDevices s, history := []
    marks := { fault := none, refusal := none } }

/-- `MEM_INIT`: bytes at a linear address, stored by the host whatever the ROM flags and the cap (00 R8, D14). -/
def loadMemory (a : LinAddr) : List Byte → State → State
  | [], s => s
  | b :: bs, s => loadMemory (a + 1) bs (s.mapBus fun u => { u with mem := memSet u.mem a.toNat b })

/-- A direct start from a register buffer, after a reset (70 R1512), with the device state the host supplies, if any. Where that
state has INT = 1 and the loaded IF is 1, the first step is the INTR entry, as 31 R501 orders it, and not the instruction step
of R1512 (the model's choice, log 42). -/
def directStart (buf : List Byte) (dev : Option Devices) (s : State) : State :=
  let t := loadRegs buf (resetMachine s)
  { t with dev := dev.getD t.dev }

/-! Configuration and inputs (70 R1531). -/

/-- The machine descriptor and the parameters (70 R1531, operation 1). -/
def configure (p : Params) (rom : List RomRegion) (mmio : List GranuleRoute) (cap : Nat) (s : State) : State :=
  { s with params := p, bus := { s.bus with romRegions := rom, mmioMap := mmio, convMemCap := cap } }

/-- The IR1 to IR7 lines: the PIC senses the change at once (61 R1339, 95 S3), and again in the next scheduler step
(61 R1302; log 9). -/
def driveIr (v : Byte) (s : State) : State := picStep (s.mapEnv fun e => { e with ir := v })

/-- `NMI_SOURCE`. -/
def driveNmi (b : Bool) (s : State) : State := s.mapEnv fun e => { e with nmiSource := b }

/-- DREQ1 to DREQ3, and the samples a demand burst will see. -/
def driveDreq (v : BitVec 4) (later : List (BitVec 4)) (s : State) : State :=
  s.mapEnv fun e => { e with dreq := v, dreqSamples := later }

/-- The turbo toggle: the clock factor of later steps (61 R1314). -/
def driveClock (f : ClockFactor) (s : State) : State := { s with params := { s.params with clockFactor := f } }

/-- The TEST pin (45 R1106). -/
def driveTest (b : Bool) (s : State) : State := { s with params := { s.params with testAsserted := b } }

/-- The answers to the coming oracle reads and DMA write transfers. -/
def answerOracles (l : List OracleAnswer) (s : State) : State := s.mapEnv fun e => { e with answers := e.answers ++ l }

/-- The wait states, in system ticks, of the coming writes to devices outside the block (21 R303). -/
def scheduleWriteWaits (l : List Nat) (s : State) : State := s.mapEnv fun e => { e with writeWaits := e.writeWaits ++ l }

/-- The cycles of the coming steps, and the EU's own clocks at the coming points of 21 R330 (31 R510, 21 R309). -/
def scheduleTiming (cycles clocks : List Nat) (s : State) : State :=
  s.mapEnv fun e => { e with cycles := e.cycles ++ cycles, euClocks := e.euClocks ++ clocks }

/-! Observation (70 R1531, R1533). -/

/-- The state the host observes: where the next step stops, the state carries the mark of the stop (00 R14, 30 R457: a
refused instruction has performed nothing), and with it registers, memory, devices and history. -/
def observed (s : State) : State :=
  match step s with
  | .next _ => s
  | .fault f => { s with marks := { s.marks with fault := some f } }
  | .refused r => { s with marks := { s.marks with refusal := some r } }

end Sys2Proof.Machine
end

