-- ==== Sys2Proof/Safety.lean ====
section
/-! DEFINITION. What claims say of states: the invariants of 31 R551, the addresses no write reaches, the end of a run
(70 R1532), and the vocabulary of effects: the value an operand reads as, the CPU and the bus after a write, and the frame
of an instruction (what it leaves unchanged). -/

namespace Sys2Proof.Machine

/-- The addresses are those of consecutive offsets of a segment base (21 R322). -/
def queueFrom (base : Word) : Word → List LinAddr → Prop
  | _, [] => True
  | off, a :: as => a = lin base off ∧ queueFrom base (off + 1) as

/-- A code fetch in progress is the cycle on the bus, with a byte from its data phase on (21 R302, R323). -/
def FetchOnBus (b : Biu) : Prop :=
  ∀ a, b.fetching = some a → b.cycle.busState = .codeFetch ∧ b.cycle.addr = a ∧
    (((b.cycle.tstate = .t1 ∨ b.cycle.tstate = .t2) ∧ b.cycle.incoming = none) ∨
      ((b.cycle.tstate = .t3 ∨ b.cycle.tstate = .tw) ∧ b.cycle.incoming.isSome))

/-- The queue holds at most `QCAP` bytes, that of a code fetch in progress counted, which has a place in it (31 R551 item 2,
21 R323). -/
def QueueBounded (s : State) : Prop := s.biu.coming.length ≤ Config.queueCap

/-- `PFP = (IP + len) mod 2^16`, and the queued bytes come from CS:IP on (21 R322), that of a code fetch in progress next,
which is on the bus (21 R323). -/
def QueueAligned (s : State) : Prop :=
  s.biu.pfp = s.cpu.ip + BitVec.ofNat 16 s.biu.queue.length ∧ queueFrom s.cpu.segs.cs s.cpu.ip s.biu.coming ∧
    FetchOnBus s.biu

/-- Memory has its canonical form. -/
def MemoryCanonical (s : State) : Prop := Memory.wf s.bus.mem = true

/-- The invariant every step keeps (31 R551). -/
structure Inv (s : State) : Prop where
  bounded : QueueBounded s
  aligned : QueueAligned s
  canonical : MemoryCanonical s

/-- No write of the bus changes the byte: ROM, a peripheral's granule, or above the cap (31 R551 items 4 and 5, 20 R212). -/
def Bus.fixed (b : Bus) (a : LinAddr) : Prop := b.writable a = false

/-- The state carries a mark: no step exists (31 R501). -/
def Marked (s : State) : Prop := s.marks.fault.isSome ∨ s.marks.refusal.isSome

/-- A run has ended (70 R1532). -/
def RunEnded (s : State) : Prop :=
  (s.cpu.halted = true ∧ s.cpu.flags.ifl = false ∧ s.dev.nmiMask.getLsbD 7 = false) ∨
    (∃ a, s.params.stopAddr = some a ∧ s.cpu.halted = false ∧ s.cpu.repRun = none ∧ s.cpu.decoding = false ∧
      entryDue s = false ∧ lin s.cpu.segs.cs s.cpu.ip = a) ∨
    Marked (observed s)

/-! What a read gives. A byte in a device's granule is the environment's answer, of which a claim says nothing. -/

/-- v is what the byte at an offset of a segment base reads as, on a bus (20 R210). -/
def ReadsByte (b : Bus) (base off : Word) (v : Byte) : Prop := b.isDevice (lin base off) = false → v = b.byte (lin base off)

/-- v is what the word there reads as: low byte at the offset, high byte at the next offset (20 R220, R222). -/
def ReadsWord (b : Bus) (base off v : Word) : Prop := ReadsByte b base off (loByte v) ∧ ReadsByte b base (off + 1) (hiByte v)

/-- v is what a byte r/m operand reads as (31 R505). -/
def OpByte (s : State) (e : RM8) (v : Byte) : Prop :=
  match e with
  | .reg r => v = s.reg8 r
  | .mem m => ReadsByte s.bus (s.seg (effSeg m s)) (effAddr m s) v

/-- v is what a word r/m operand reads as (31 R505). -/
def OpWord (s : State) (e : RM16) (v : Word) : Prop :=
  match e with
  | .reg r => v = s.reg16 r
  | .mem m => ReadsWord s.bus (s.seg (effSeg m s)) (effAddr m s) v

/-! What a write leaves. -/

/-- The CPU with a word register written, and marked written. -/
def Cpu.put16 (c : Cpu) (r : Reg16) (v : Word) : Cpu := { c with regs := c.regs.set r v, written := c.written.set r true }

/-- The CPU with a byte register written: only its half changes (10 R103). -/
def Cpu.put8 (c : Cpu) (r : Reg8) (v : Byte) : Cpu :=
  c.put16 (wholeOf r) (withHalf (c.regs.get (wholeOf r)) (isHighHalf r) v)

/-- The CPU with a segment register written. -/
def Cpu.putSeg (c : Cpu) (r : Sreg) (v : Word) : Cpu := { c with segs := c.segs.set r v }

/-- The CPU with the flags replaced. -/
def Cpu.putFlags (c : Cpu) (f : Flags) : Cpu := { c with flags := f }

/-- The CPU with IP replaced. -/
def Cpu.putIp (c : Cpu) (v : Word) : Cpu := { c with ip := v }

/-- The bus after a word is written at an offset of a segment base, low byte first. -/
def Bus.storeWord (b : Bus) (base off v : Word) : Bus :=
  (b.store (lin base off) (loByte v)).store (lin base (off + 1)) (hiByte v)

/-- The two bytes of that word. -/
def wordCells (base off : Word) : List LinAddr := [lin base off, lin base (off + 1)]

/-- The CPU c after a byte r/m operand takes v. -/
def cpuPut8 (e : RM8) (v : Byte) (c : Cpu) : Cpu :=
  match e with
  | .reg r => c.put8 r v
  | .mem _ => c

/-- The CPU c after a word r/m operand takes v. -/
def cpuPut16 (e : RM16) (v : Word) (c : Cpu) : Cpu :=
  match e with
  | .reg r => c.put16 r v
  | .mem _ => c

/-- The bus of s after a byte r/m operand, located in s, takes v. -/
def busPut8 (s : State) (e : RM8) (v : Byte) : Bus :=
  match e with
  | .reg _ => s.bus
  | .mem m => s.bus.store (lin (s.seg (effSeg m s)) (effAddr m s)) v

/-- The bus of s after a word r/m operand, located in s, takes v. -/
def busPut16 (s : State) (e : RM16) (v : Word) : Bus :=
  match e with
  | .reg _ => s.bus
  | .mem m => s.bus.storeWord (s.seg (effSeg m s)) (effAddr m s) v

/-- The bytes a write of a byte r/m operand stores to. -/
def cells8 (s : State) (e : RM8) : List LinAddr :=
  match e with
  | .reg _ => []
  | .mem m => [lin (s.seg (effSeg m s)) (effAddr m s)]

/-- The bytes a write of a word r/m operand stores to. -/
def cells16 (s : State) (e : RM16) : List LinAddr :=
  match e with
  | .reg _ => []
  | .mem m => wordCells (s.seg (effSeg m s)) (effAddr m s)

/-! The frame of an instruction. -/

/-- What is unchanged from s to t beside the CPU, the BIU, the devices, the history and the free values: every byte of memory
outside the cells stored to, the bus's routing, the parameters, the marks and the environment's lines. -/
structure Frame (s t : State) (cells : List LinAddr) : Prop where
  bytes : ∀ a, a ∉ cells → t.bus.byte a = s.bus.byte a
  rom : t.bus.romRegions = s.bus.romRegions
  mmio : t.bus.mmioMap = s.bus.mmioMap
  cap : t.bus.convMemCap = s.bus.convMemCap
  params : t.params = s.params
  marks : t.marks = s.marks
  ir : t.env.ir = s.env.ir
  nmi : t.env.nmiSource = s.env.nmiSource
  dreq : t.env.dreq = s.env.dreq

/-- The queue of t is that of s with more bytes fetched behind it: nothing has been flushed or taken. -/
def QueueGrows (s t : State) : Prop :=
  t.biu.fetchSuspended = s.biu.fetchSuspended ∧ ∃ l, t.biu.queue = s.biu.queue ++ l

/-- An instruction that transfers no control has led from s to t: the CPU is c, the bus is b, which differs from that of s
in no byte outside the cells, and the devices are as they were. -/
def Effect (s t : State) (c : Cpu) (b : Bus) (cells : List LinAddr) : Prop :=
  t.cpu = c ∧ t.bus = b ∧ t.dev = s.dev ∧ QueueGrows s t ∧ Frame s t cells

/-- The queue has been flushed: it is empty, with no byte of a code fetch to come, the prefetch pointer is IP, and fetching
goes on (21 R327, R329). -/
def Flushed (t : State) : Prop :=
  t.biu.queue = [] ∧ t.biu.fetching = none ∧ t.biu.pfp = t.cpu.ip ∧ t.biu.cycle.queueOp = .flush ∧ t.biu.fetchSuspended = false

/-- The same of a call, which flushes while the write of its own push may still be going on: where the flush fell in the clock
that led to the write's T2, the record shows the clock after it, that of the data phase (21 R309, R327; how the clocks after a
write's T1 are laid out is the model's choice, log 24). -/
def FlushedInPush (t : State) : Prop :=
  t.biu.queue = [] ∧ t.biu.fetching = none ∧ t.biu.pfp = t.cpu.ip ∧ t.biu.fetchSuspended = false ∧
    (t.biu.cycle.queueOp = .flush ∨ (t.biu.cycle.queueOp = .idle ∧ t.biu.cycle.tstate = .t3 ∧
      t.biu.cycle.busState = .memWrite ∧ t.biu.cycle.access = .stack))

/-- An instruction that transfers control has led from s to t. -/
def Transfer (s t : State) (c : Cpu) (b : Bus) (cells : List LinAddr) : Prop :=
  t.cpu = c ∧ t.bus = b ∧ t.dev = s.dev ∧ Flushed t ∧ Frame s t cells

/-- A call has led from s to t, its flush beside the write of its push (log 24). -/
def CallTransfer (s t : State) (c : Cpu) (b : Bus) (cells : List LinAddr) : Prop :=
  t.cpu = c ∧ t.bus = b ∧ t.dev = s.dev ∧ FlushedInPush t ∧ Frame s t cells

/-- The interrupt entry of vector n with return offset ret has led from s to t, the flags at the FLAGS push being f
(60 R1220, R1223): FLAGS image, CS and ret lie below the old SP, IF and TF are clear, and CS:IP is the vector's. -/
def Enters (n : Byte) (ret : Word) (f : Flags) (s t : State) : Prop :=
  let ss := s.seg .ss
  let sp := s.reg16 .sp
  let b := ((s.bus.storeWord ss (sp - 2) f.image).storeWord ss (sp - 4) (s.seg .cs)).storeWord ss (sp - 6) ret
  ∃ o sel, ReadsWord b 0 (4 * zext16 n) o ∧ ReadsWord b 0 (4 * zext16 n + 2) sel ∧
    Transfer s t ((((s.cpu.put16 .sp (sp - 6)).putFlags { f with ifl := false, tf := false }).putSeg .cs sel).putIp o) b
      (wordCells ss (sp - 2) ++ wordCells ss (sp - 4) ++ wordCells ss (sp - 6))

end Sys2Proof.Machine
end

