-- ==== Sys2Proof/Certificates/Slice0/Obligations.lean ====
section
/-! DEFINITION. The statements for the provers, each from rules of the spec. Effects are said in the vocabulary of Safety.lean:
`Effect s t c b cells` (no transfer of control: CPU c, bus b, no byte outside the cells changed, devices, parameters, marks
and environment lines unchanged, the queue only grown), `Transfer` (the same with the queue flushed), `CallTransfer` (a
call's, which flushes beside the write of its push) and `Enters` (an interrupt entry). A free value
(log 6) is an existential variable of which nothing more is said. A general register holds a value in every state, written or
not (the model's choice, log 2), so that no statement needs a written mark. -/

namespace Sys2Proof.Claims

open Sys2Proof.Machine

/-! Instruction names by operation and form. -/

/-- `op Eb, Gb`. -/
def aluEbGb : AluOp → RM8 → Reg8 → Instr
  | .add => .addEbGb | .or => .orEbGb | .adc => .adcEbGb | .sbb => .sbbEbGb
  | .and => .andEbGb | .sub => .subEbGb | .xor => .xorEbGb | .cmp => .cmpEbGb

/-- `op Ev, Gv`. -/
def aluEvGv : AluOp → RM16 → Reg16 → Instr
  | .add => .addEvGv | .or => .orEvGv | .adc => .adcEvGv | .sbb => .sbbEvGv
  | .and => .andEvGv | .sub => .subEvGv | .xor => .xorEvGv | .cmp => .cmpEvGv

/-- `op Gb, Eb`. -/
def aluGbEb : AluOp → Reg8 → RM8 → Instr
  | .add => .addGbEb | .or => .orGbEb | .adc => .adcGbEb | .sbb => .sbbGbEb
  | .and => .andGbEb | .sub => .subGbEb | .xor => .xorGbEb | .cmp => .cmpGbEb

/-- `op Gv, Ev`. -/
def aluGvEv : AluOp → Reg16 → RM16 → Instr
  | .add => .addGvEv | .or => .orGvEv | .adc => .adcGvEv | .sbb => .sbbGvEv
  | .and => .andGvEv | .sub => .subGvEv | .xor => .xorGvEv | .cmp => .cmpGvEv

/-- `op AL, Ib`. -/
def aluAlIb : AluOp → Byte → Instr
  | .add => .addAlIb | .or => .orAlIb | .adc => .adcAlIb | .sbb => .sbbAlIb
  | .and => .andAlIb | .sub => .subAlIb | .xor => .xorAlIb | .cmp => .cmpAlIb

/-- `op AX, Iw`. -/
def aluAxIw : AluOp → Word → Instr
  | .add => .addAxIw | .or => .orAxIw | .adc => .adcAxIw | .sbb => .sbbAxIw
  | .and => .andAxIw | .sub => .subAxIw | .xor => .xorAxIw | .cmp => .cmpAxIw

/-- `op Eb, Ib` (80 /op). -/
def aluEbIb : AluOp → RM8 → Byte → Instr
  | .add => .addEbIb | .or => .orEbIb | .adc => .adcEbIb | .sbb => .sbbEbIb
  | .and => .andEbIb | .sub => .subEbIb | .xor => .xorEbIb | .cmp => .cmpEbIb

/-- `op Ev, Iw` (81 /op). -/
def aluEvIw : AluOp → RM16 → Word → Instr
  | .add => .addEvIw | .or => .orEvIw | .adc => .adcEvIw | .sbb => .sbbEvIw
  | .and => .andEvIw | .sub => .subEvIw | .xor => .xorEvIw | .cmp => .cmpEvIw

/-- `op Ev, sext(Ib)` (83 /op). -/
def aluEvIbSx : AluOp → RM16 → Byte → Instr
  | .add => .addEvIbSx | .or => .orEvIbSx | .adc => .adcEvIbSx | .sbb => .sbbEvIbSx
  | .and => .andEvIbSx | .sub => .subEvIbSx | .xor => .xorEvIbSx | .cmp => .cmpEvIbSx

/-- Group 2 by 1, byte. -/
def shiftEb1 : ShiftOp → RM8 → Instr
  | .rol => .rolEb1 | .ror => .rorEb1 | .rcl => .rclEb1 | .rcr => .rcrEb1 | .shl => .shlEb1 | .shr => .shrEb1 | .sar => .sarEb1

/-- Group 2 by 1, word. -/
def shiftEv1 : ShiftOp → RM16 → Instr
  | .rol => .rolEv1 | .ror => .rorEv1 | .rcl => .rclEv1 | .rcr => .rcrEv1 | .shl => .shlEv1 | .shr => .shrEv1 | .sar => .sarEv1

/-- Group 2 by CL, byte. -/
def shiftEbCl : ShiftOp → RM8 → Instr
  | .rol => .rolEbCl | .ror => .rorEbCl | .rcl => .rclEbCl | .rcr => .rcrEbCl | .shl => .shlEbCl | .shr => .shrEbCl
  | .sar => .sarEbCl

/-- Group 2 by CL, word. -/
def shiftEvCl : ShiftOp → RM16 → Instr
  | .rol => .rolEvCl | .ror => .rorEvCl | .rcl => .rclEvCl | .rcr => .rcrEvCl | .shl => .shlEvCl | .shr => .shrEvCl
  | .sar => .sarEvCl

/-- A string instruction, byte or word. -/
def stringOf : StringOp → Bool → Instr
  | .movs, false => .movsb | .movs, true => .movsw
  | .cmps, false => .cmpsb | .cmps, true => .cmpsw
  | .scas, false => .scasb | .scas, true => .scasw
  | .lods, false => .lodsb | .lods, true => .lodsw
  | .stos, false => .stosb | .stos, true => .stosw

/-- The conditional jump of a condition code, 70 + cc. -/
def jcc (cc : Fin 16) : Byte → Instr :=
  match cc.val with
  | 0 => .jo | 1 => .jno | 2 => .jb | 3 => .jnb | 4 => .jz | 5 => .jnz | 6 => .jbe | 7 => .ja
  | 8 => .js | 9 => .jns | 10 => .jp | 11 => .jnp | 12 => .jl | 13 => .jge | 14 => .jle | _ => .jg

/-- The condition table of 44 R1003. -/
def holds (cc : Fin 16) (f : Flags) : Prop :=
  match cc.val with
  | 0 => f.ovf = true
  | 1 => f.ovf = false
  | 2 => f.cf = true
  | 3 => f.cf = false
  | 4 => f.zf = true
  | 5 => f.zf = false
  | 6 => f.cf = true ∨ f.zf = true
  | 7 => f.cf = false ∧ f.zf = false
  | 8 => f.sf = true
  | 9 => f.sf = false
  | 10 => f.pf = true
  | 11 => f.pf = false
  | 12 => f.sf ≠ f.ovf
  | 13 => f.sf = f.ovf
  | 14 => f.zf = true ∨ f.sf ≠ f.ovf
  | _ => f.zf = false ∧ f.sf = f.ovf

/-- The documented instruction whose meaning an undocumented alias has, with the alias's opcode byte (30 R455). -/
def documented : Instr → Option (Instr × Byte)
  | .addEbIbAlias e i => some (.addEbIb e i, 0x82)
  | .orEbIbAlias e i => some (.orEbIb e i, 0x82)
  | .adcEbIbAlias e i => some (.adcEbIb e i, 0x82)
  | .sbbEbIbAlias e i => some (.sbbEbIb e i, 0x82)
  | .andEbIbAlias e i => some (.andEbIb e i, 0x82)
  | .subEbIbAlias e i => some (.subEbIb e i, 0x82)
  | .xorEbIbAlias e i => some (.xorEbIb e i, 0x82)
  | .cmpEbIbAlias e i => some (.cmpEbIb e i, 0x82)
  | .testEbIbAlias e i => some (.testEbIb e i, 0xF6)
  | .testEvIwAlias e i => some (.testEvIw e i, 0xF7)
  | .movEwSwAlias e r => some (.movEwSw e r, 0x8C)
  | .movEsEwAlias e => some (.movEsEw e, 0x8E)
  | .movSsEwAlias e => some (.movSsEw e, 0x8E)
  | .movDsEwAlias e => some (.movDsEw e, 0x8E)
  | .jccAlias cc rel => some (jcc cc.toFin rel, 0x60 + cc.setWidth 8)
  | .retIwAlias i => some (.retIw i, 0xC0)
  | .retAlias => some (.ret, 0xC1)
  | .retfIwAlias i => some (.retfIw i, 0xC8)
  | .retfAlias => some (.retf, 0xC9)
  | .prefixLockAlias => some (.prefixLock, 0xF1)
  | _ => none

/-- The undocumented instructions that are no alias, with the opcode byte (30 R455, 41 R752, 42 R818). -/
def undocumented : Instr → Option Byte
  | .salc => some 0xD6
  | .setmoEb1 _ => some 0xD0
  | .setmoEv1 _ => some 0xD1
  | .setmocEbCl _ => some 0xD2
  | .setmocEvCl _ => some 0xD3
  | _ => none

/-- The forms refused under every `UNDOC_MODE`, with the opcode byte (30 R456). -/
def refusedForm : Instr → Option Byte
  | .popCsRefused => some 0x0F
  | .leaGvRegRefused _ _ => some 0x8D
  | .movCsEwRefused1 _ => some 0x8E
  | .movCsEwRefused5 _ => some 0x8E
  | .pop8FRefused _ _ => some 0x8F
  | .lesGvRegRefused _ _ => some 0xC4
  | .ldsGvRegRefused _ _ => some 0xC5
  | .movC6Refused _ _ _ => some 0xC6
  | .movC7Refused _ _ _ => some 0xC7
  | .feRefused _ _ => some 0xFE
  | .callMpRegRefused _ => some 0xFF
  | .jmpMpRegRefused _ => some 0xFF
  | .ff7Refused _ => some 0xFF
  | _ => none

/-! Flags and results in the spec's arithmetic. -/

/-- The flags other than the six arithmetic ones are those of f. -/
def KeepsControl (f g : Flags) : Prop := g.tf = f.tf ∧ g.ifl = f.ifl ∧ g.df = f.df

/-- `AddFlags(a, b, c)` gives the flags g (41 R701), AF and OF also as the carry out of bit 3 and the signed overflow
(10 R122). -/
def AddSpec {w : Nat} (a b : BitVec w) (c : Bool) (f g : Flags) : Prop :=
  let t := a.toNat + b.toNat + bitNat c
  let r := BitVec.ofNat w t
  let i : Int := a.toInt + b.toInt + bitNat c
  addResult a b c = r ∧
  (g.cf = true ↔ 2 ^ w ≤ t) ∧
  (g.af = true ↔ 16 ≤ a.toNat % 16 + b.toNat % 16 + bitNat c) ∧ g.af = (a ^^^ b ^^^ r).getLsbD 4 ∧
  (g.ovf = true ↔ i < -2 ^ (w - 1) ∨ 2 ^ (w - 1) ≤ i) ∧ g.ovf = ((a ^^^ r) &&& (b ^^^ r)).msb ∧
  g.sf = r.msb ∧ (g.zf = true ↔ r = 0) ∧ g.pf = evenParity (r.setWidth 8) ∧ KeepsControl f g

/-- `SubFlags(a, b, c)` gives the flags g (41 R702), AF and OF also as the borrow into bit 3 and the signed overflow
(10 R122). -/
def SubSpec {w : Nat} (a b : BitVec w) (c : Bool) (f g : Flags) : Prop :=
  let t : Int := a.toNat - b.toNat - bitNat c
  let r := BitVec.ofInt w t
  let i : Int := a.toInt - b.toInt - bitNat c
  subResult a b c = r ∧
  (g.cf = true ↔ a.toNat < b.toNat + bitNat c) ∧
  (g.af = true ↔ a.toNat % 16 < b.toNat % 16 + bitNat c) ∧ g.af = (a ^^^ b ^^^ r).getLsbD 4 ∧
  (g.ovf = true ↔ i < -2 ^ (w - 1) ∨ 2 ^ (w - 1) ≤ i) ∧ g.ovf = ((a ^^^ b) &&& (a ^^^ r)).msb ∧
  g.sf = r.msb ∧ (g.zf = true ↔ r = 0) ∧ g.pf = evenParity (r.setWidth 8) ∧ KeepsControl f g

/-- The result of an ALU operation (41 R705 to R709, 42 R801 to R803). -/
def aluValue {w : Nat} (op : AluOp) (a b : BitVec w) (cf : Bool) : BitVec w :=
  match op with
  | .add => a + b
  | .or => a ||| b
  | .adc => a + b + BitVec.ofNat w (bitNat cf)
  | .sbb => a - b - BitVec.ofNat w (bitNat cf)
  | .and => a &&& b
  | .sub => a - b
  | .xor => a ^^^ b
  | .cmp => a - b

/-- The flags after an ALU operation, af being the free value of a logic operation's AF (41 R705 to R709, 42 R800). -/
def aluFlagsAfter {w : Nat} (op : AluOp) (a b : BitVec w) (af : Bool) (f : Flags) : Flags :=
  match op with
  | .add => addFlags a b false f
  | .adc => addFlags a b f.cf f
  | .sub => subFlags a b false f
  | .sbb => subFlags a b f.cf f
  | .cmp => subFlags a b false f
  | .or => { f.szp (a ||| b) with cf := false, ovf := false, af := af }
  | .and => { f.szp (a &&& b) with cf := false, ovf := false, af := af }
  | .xor => { f.szp (a ^^^ b) with cf := false, ovf := false, af := af }

/-- `E <- E op b` at byte width has led from s to t (41 R703): CMP writes flags only. -/
def AluByte (op : AluOp) (e : RM8) (b : Byte) (s t : State) : Prop :=
  ∃ a af, OpByte s e a ∧
    if op = .cmp then Effect s t (s.cpu.putFlags (aluFlagsAfter op a b af s.cpu.flags)) s.bus []
    else Effect s t (cpuPut8 e (aluValue op a b s.cpu.flags.cf) (s.cpu.putFlags (aluFlagsAfter op a b af s.cpu.flags)))
      (busPut8 s e (aluValue op a b s.cpu.flags.cf)) (cells8 s e)

/-- `E <- E op b` at word width has led from s to t (41 R703). -/
def AluWord (op : AluOp) (e : RM16) (b : Word) (s t : State) : Prop :=
  ∃ a af, OpWord s e a ∧
    if op = .cmp then Effect s t (s.cpu.putFlags (aluFlagsAfter op a b af s.cpu.flags)) s.bus []
    else Effect s t (cpuPut16 e (aluValue op a b s.cpu.flags.cf) (s.cpu.putFlags (aluFlagsAfter op a b af s.cpu.flags)))
      (busPut16 s e (aluValue op a b s.cpu.flags.cf)) (cells16 s e)

/-- `G <- G op E` at byte width has led from s to t (41 R703). -/
def AluRegByte (op : AluOp) (g : Reg8) (e : RM8) (s t : State) : Prop :=
  ∃ b af, OpByte s e b ∧
    if op = .cmp then Effect s t (s.cpu.putFlags (aluFlagsAfter op (s.reg8 g) b af s.cpu.flags)) s.bus []
    else Effect s t ((s.cpu.putFlags (aluFlagsAfter op (s.reg8 g) b af s.cpu.flags)).put8 g
      (aluValue op (s.reg8 g) b s.cpu.flags.cf)) s.bus []

/-- `G <- G op E` at word width has led from s to t (41 R703). -/
def AluRegWord (op : AluOp) (g : Reg16) (e : RM16) (s t : State) : Prop :=
  ∃ b af, OpWord s e b ∧
    if op = .cmp then Effect s t (s.cpu.putFlags (aluFlagsAfter op (s.reg16 g) b af s.cpu.flags)) s.bus []
    else Effect s t ((s.cpu.putFlags (aluFlagsAfter op (s.reg16 g) b af s.cpu.flags)).put16 g
      (aluValue op (s.reg16 g) b s.cpu.flags.cf)) s.bus []

/-- TEST of E with b at byte width has led from s to t (42 R804): only flags change, AF free. -/
def TestByte (e : RM8) (b : Byte) (s t : State) : Prop :=
  ∃ a af, OpByte s e a ∧
    Effect s t (s.cpu.putFlags { s.cpu.flags.szp (a &&& b) with cf := false, ovf := false, af := af }) s.bus []

/-- TEST of E with b at word width has led from s to t (42 R804). -/
def TestWord (e : RM16) (b : Word) (s t : State) : Prop :=
  ∃ a af, OpWord s e a ∧
    Effect s t (s.cpu.putFlags { s.cpu.flags.szp (a &&& b) with cf := false, ovf := false, af := af }) s.bus []

/-- A byte operand of value a has become r with the flags g, from s to t: read once, written once (31 R505). -/
def UnaryByte (e : RM8) (r : Byte → Byte) (g : Byte → Flags) (s t : State) : Prop :=
  ∃ a, OpByte s e a ∧ Effect s t (cpuPut8 e (r a) (s.cpu.putFlags (g a))) (busPut8 s e (r a)) (cells8 s e)

/-- A word operand of value a has become r with the flags g, from s to t. -/
def UnaryWord (e : RM16) (r : Word → Word) (g : Word → Flags) (s t : State) : Prop :=
  ∃ a, OpWord s e a ∧ Effect s t (cpuPut16 e (r a) (s.cpu.putFlags (g a))) (busPut16 s e (r a)) (cells16 s e)

/-- Only `REP_NEGATE_UNSIGNED` makes a REP prefix negate an unsigned product or quotient (41 R730, R734). -/
def negatesMul (s : State) : Bool := s.params.repNegateUnsigned && s.cpu.f1

/-- The divide error has been taken from s to t (41 R724, 60 R1210): vector 0, the six arithmetic flags free, the return
offset that `DIV_ERROR_RETURN` names; no other register is written. -/
def DivideError (s t : State) : Prop :=
  ∃ f, KeepsControl s.cpu.flags f ∧
    Enters 0 (match s.params.divErrorReturn with | .next => s.cpu.ip | .faulting => s.cpu.ipStart) f s t

/-! Shifts. -/

/-- The count, as a byte: 1, or all of CL (42 R810). -/
def countCl (s : State) : Nat := (s.reg8 .cl).toNat

/-- OF after a shift or rotate of x by 1 with carry cf, in closed form (42 R811 to R817): the top bit of the result against
the bit shifted out to the left, or the two top bits of the result of a rotate to the right, or the old top bit (SHR), or 0
(SAR). -/
def overflowOfOne {w : Nat} (op : ShiftOp) (x : BitVec w) (cf : Bool) : Bool :=
  match op with
  | .rol => Bool.xor (x.rotateLeft 1).msb x.msb
  | .ror => Bool.xor (x.rotateRight 1).msb ((x.rotateRight 1).getLsbD (w - 2))
  | .rcl => Bool.xor (x.getLsbD (w - 2)) x.msb
  | .rcr => Bool.xor cf x.msb
  | .shl => Bool.xor (x <<< 1).msb x.msb
  | .shr => x.msb
  | .sar => false

/-- The flags after a shift or rotate of x by n ≠ 0, with free values for AF (shifts) and for OF where n ≠ 1
(42 R810 to R817). -/
def shiftFlagsAfter {w : Nat} (op : ShiftOp) (n : Nat) (x : BitVec w) (af o : Bool) (f : Flags) : Flags :=
  let r := shiftSteps op n x f.cf
  let ovf := if n = 1 then overflowOfOne op x f.cf else o
  match op with
  | .rol => { f with cf := r.2, ovf := ovf }
  | .ror => { f with cf := r.2, ovf := ovf }
  | .rcl => { f with cf := r.2, ovf := ovf }
  | .rcr => { f with cf := r.2, ovf := ovf }
  | .shl => { f.szp r.1 with cf := r.2, ovf := ovf, af := af }
  | .shr => { f.szp r.1 with cf := r.2, ovf := ovf, af := af }
  | .sar => { f.szp r.1 with cf := r.2, ovf := ovf, af := af }

/-- A shift or rotate of a byte operand by n has led from s to t (42 R810); a count of 0 changes nothing. -/
def ShiftByte (op : ShiftOp) (n : Nat) (e : RM8) (s t : State) : Prop :=
  ∃ x af o, OpByte s e x ∧
    if n = 0 then Effect s t s.cpu s.bus []
    else Effect s t (cpuPut8 e (shiftSteps op n x s.cpu.flags.cf).1 (s.cpu.putFlags (shiftFlagsAfter op n x af o s.cpu.flags)))
      (busPut8 s e (shiftSteps op n x s.cpu.flags.cf).1) (cells8 s e)

/-- A shift or rotate of a word operand by n has led from s to t (42 R810). -/
def ShiftWord (op : ShiftOp) (n : Nat) (e : RM16) (s t : State) : Prop :=
  ∃ x af o, OpWord s e x ∧
    if n = 0 then Effect s t s.cpu s.bus []
    else Effect s t (cpuPut16 e (shiftSteps op n x s.cpu.flags.cf).1 (s.cpu.putFlags (shiftFlagsAfter op n x af o s.cpu.flags)))
      (busPut16 s e (shiftSteps op n x s.cpu.flags.cf).1) (cells16 s e)

/-- SETMO's flags: SF = 1, ZF = 0, PF = 1, CF = OF = AF = 0 (42 R818). -/
def setmoFlagsAfter (f : Flags) : Flags :=
  { f with sf := true, zf := false, pf := true, cf := false, ovf := false, af := false }

/-- SETMO or SETMOC of a byte operand with count n has led from s to t (42 R818). -/
def SetmoByte (n : Nat) (e : RM8) (s t : State) : Prop :=
  if n = 0 then Effect s t s.cpu s.bus []
  else Effect s t (cpuPut8 e 0xFF (s.cpu.putFlags (setmoFlagsAfter s.cpu.flags))) (busPut8 s e 0xFF) (cells8 s e)

/-- SETMO or SETMOC of a word operand with count n has led from s to t (42 R818). -/
def SetmoWord (n : Nat) (e : RM16) (s t : State) : Prop :=
  if n = 0 then Effect s t s.cpu s.bus []
  else Effect s t (cpuPut16 e 0xFFFF (s.cpu.putFlags (setmoFlagsAfter s.cpu.flags))) (busPut16 s e 0xFFFF) (cells16 s e)

/-! The stack. -/

/-- The word v has been pushed, from s to t (00 R12). -/
def Pushed (v : Word) (s t : State) : Prop :=
  Effect s t (s.cpu.put16 .sp (s.reg16 .sp - 2)) (s.bus.storeWord (s.seg .ss) (s.reg16 .sp - 2) v)
    (wordCells (s.seg .ss) (s.reg16 .sp - 2))

/-- v is the word at the top of the stack. -/
def TopWord (s : State) (v : Word) : Prop := ReadsWord s.bus (s.seg .ss) (s.reg16 .sp) v

/-- The CPU after a pop, before the popped word is written (00 R12). -/
def popCpu (s : State) : Cpu := s.cpu.put16 .sp (s.reg16 .sp + 2)

/-! IO ports. -/

/-- A read of port p with devices d and parameters q gives v and leaves the devices d' (20 R230, 61 R1301); env are the
environment's DREQ lines. -/
def PortReads (d : Devices) (q : Params) (env : BitVec 4) (p : Word) (v : Byte) (d' : Devices) : Prop :=
  ∃ u : State, u.dev = d ∧ u.params = q ∧ u.env.dreq = env ∧ v = (portRead p u).1.value ∧ d' = (portRead p u).2.dev

/-- A write of v to port p turns the devices d into d' (20 R230, 61 R1301). -/
def PortWrites (d : Devices) (q : Params) (p : Word) (v : Byte) (d' : Devices) : Prop :=
  ∃ u : State, u.dev = d ∧ u.params = q ∧ d' = (portWrite p v u).dev

/-- An IO instruction has led from s to t: the CPU is c, the devices are d, memory is as it was. -/
def IoEffect (s t : State) (c : Cpu) (d : Devices) : Prop :=
  t.cpu = c ∧ t.bus = s.bus ∧ t.dev = d ∧ QueueGrows s t ∧ Frame s t []

/-- The bytes the spec states of a read of port p that gave v and turned the devices d into d': an unclaimed port, the PPI
latch, the mask of an initialised PIC. -/
def PortValue (q : Params) (p : Word) (v : Byte) (d d' : Devices) : Prop :=
  (portUse q.oraclePorts p = .unclaimed → v = q.unmappedIoRead ∧ d' = d) ∧ (p = 0x61 → v = d.ppiB ∧ d' = d) ∧
    (p = 0x21 ∧ d.pic.init = .ready → v = d.pic.imr ∧ d' = d)

/-- The effects the spec states of a write of v to port p that turned the devices d into d': an unclaimed port, the NMI mask
latch, the PPI latch with GATE2. -/
def PortTakes (q : Params) (p : Word) (v : Byte) (d d' : Devices) : Prop :=
  (portUse q.oraclePorts p = .unclaimed → d' = d) ∧ (p = 0xA0 → d' = { d with nmiMask := v }) ∧
    (p = 0x61 → d'.ppiB = v ∧ d'.pit.c2.gate = v.getLsbD 0)

/-- IN AL has read port p, from s to t (40 R622, R623). -/
def InByte (p : Word) (s t : State) : Prop :=
  ∃ v d, PortReads s.dev s.params s.env.dreq p v d ∧ PortValue s.params p v s.dev d ∧ IoEffect s t (s.cpu.put8 .al v) d

/-- IN AX has read port p and the next port, from s to t. -/
def InWord (p : Word) (s t : State) : Prop :=
  ∃ lo hi d d', PortReads s.dev s.params s.env.dreq p lo d ∧ PortValue s.params p lo s.dev d ∧
    PortReads d s.params s.env.dreq (p + 1) hi d' ∧ PortValue s.params (p + 1) hi d d' ∧
    IoEffect s t (s.cpu.put16 .ax (mkWord hi lo)) d'

/-- OUT of a byte to port p, from s to t (40 R624, R625). -/
def OutByte (p : Word) (v : Byte) (s t : State) : Prop :=
  ∃ d, PortWrites s.dev s.params p v d ∧ PortTakes s.params p v s.dev d ∧ IoEffect s t s.cpu d

/-- OUT of a word to port p and the next port, low byte first, from s to t. -/
def OutWord (p v : Word) (s t : State) : Prop :=
  ∃ d d', PortWrites s.dev s.params p (loByte v) d ∧ PortTakes s.params p (loByte v) s.dev d ∧
    PortWrites d s.params (p + 1) (hiByte v) d' ∧ PortTakes s.params (p + 1) (hiByte v) d d' ∧ IoEffect s t s.cpu d'

/-! The history (20 R241), newest event first. -/

/-- The event is no code fetch. -/
def isAccess : BusEvent → Bool
  | .codeFetch _ _ => false
  | .memRead _ _ _ => true
  | .memWrite _ _ _ => true
  | .ioRead _ _ => true
  | .ioWrite _ _ => true
  | .intaFirst => true
  | .intaVector _ => true
  | .dmaRead _ _ _ => true
  | .dmaWrite _ _ _ => true

/-- Beside the code fetches of the BIU's turns, exactly the events l, newest first, have been added from s to t (20 R241,
21 R330, R331). -/
def Adds (l : List BusEvent) (s t : State) : Prop := t.history.filter isAccess = l ++ s.history.filter isAccess

/-! Strings. -/

/-- v is the element at an offset of a segment base: a byte, zero-extended, or a word (43 R900). -/
def ReadsElem (b : Bus) (wide : Bool) (base off v : Word) : Prop :=
  if wide then ReadsWord b base off v else v = zext16 (loByte v) ∧ ReadsByte b base off (loByte v)

/-- The bus after an element is written. -/
def storeElem (b : Bus) (wide : Bool) (base off v : Word) : Bus :=
  if wide then b.storeWord base off v else b.store (lin base off) (loByte v)

/-- The bytes of an element. -/
def elemCells (wide : Bool) (base off : Word) : List LinAddr := if wide then wordCells base off else [lin base off]

/-- An index moved by delta: plus or minus the element's width, by DF (43 R901). -/
def moved (wide : Bool) (f : Flags) (x : Word) : Word :=
  let n : Word := if wide then 2 else 1
  if f.df then x - n else x + n

/-- The accumulator, AL zero-extended or AX (43 R900). -/
def accOf (wide : Bool) (s : State) : Word := if wide then s.reg16 .ax else zext16 (s.reg8 .al)

/-- The flags of a comparison at the element's width (43 R903, R904). -/
def compareFlags (wide : Bool) (a b : Word) (f : Flags) : Flags :=
  if wide then subFlags a b false f else subFlags (loByte a) (loByte b) false f

/-- One iteration has led from s to t, ovr being the segment override (43 R902 to R906). -/
def Iteration (op : StringOp) (wide : Bool) (ovr : Option Sreg) (s t : State) : Prop :=
  let src := s.seg (ovr.getD .ds)
  let es := s.seg .es
  let si := s.reg16 .si
  let di := s.reg16 .di
  let f := s.cpu.flags
  match op with
  | .movs => ∃ v, ReadsElem s.bus wide src si v ∧
      Effect s t ((s.cpu.put16 .si (moved wide f si)).put16 .di (moved wide f di)) (storeElem s.bus wide es di v)
        (elemCells wide es di)
  | .cmps => ∃ a b, ReadsElem s.bus wide src si a ∧ ReadsElem s.bus wide es di b ∧
      Effect s t (((s.cpu.putFlags (compareFlags wide a b f)).put16 .si (moved wide f si)).put16 .di (moved wide f di)) s.bus []
  | .scas => ∃ b, ReadsElem s.bus wide es di b ∧
      Effect s t ((s.cpu.putFlags (compareFlags wide (accOf wide s) b f)).put16 .di (moved wide f di)) s.bus []
  | .lods => ∃ v, ReadsElem s.bus wide src si v ∧
      Effect s t ((if wide then s.cpu.put16 .ax v else s.cpu.put8 .al (loByte v)).put16 .si (moved wide f si)) s.bus []
  | .stos => Effect s t (s.cpu.put16 .di (moved wide f di)) (storeElem s.bus wide es di (accOf wide s)) (elemCells wide es di)

/-- `stop` of `rep_iteration` in the state u, CX already decremented (43 R910). -/
def Stops (r : RepRun) (u : Cpu) : Prop :=
  u.regs.cx = 0 ∨ ((r.op = .cmps ∨ r.op = .scas) ∧
    ((r.rep = .repe ∧ u.flags.zf = false) ∨ (r.rep = .repne ∧ u.flags.zf = true)))

/-- `rep_iteration()` of the run r has led from s to t (43 R910): one iteration to u, then CX and the run's record. -/
def RepIteration (r : RepRun) (s t : State) : Prop :=
  ∃ u, Iteration r.op r.wide r.segOverride s u ∧
    let c := u.cpu.put16 .cx (s.reg16 .cx - 1)
    (Stops r c → t = u.mapCpu fun _ => { c with repRun := none }) ∧
    (¬ Stops r c → t = u.mapCpu fun _ => { c with repRun := some r })

/-- The REP run a decoded string instruction starts (31 R540). -/
def runOf (op : StringOp) (wide : Bool) (k : RepKind) (s : State) : RepRun :=
  { op := op, wide := wide, rep := k, segOverride := s.cpu.pfx.segOverride, ipStart := s.cpu.ipStart
    ipLastPfx := s.cpu.ipLastPfx }

/-! Control transfer. -/

/-- The taken jump: IP is the target, the queue is flushed, nothing else changes (00 R13). -/
def Jumped (t : Word) (s u : State) : Prop := Transfer s u (s.cpu.putIp t) s.bus []

/-- The far jump (00 R13). -/
def FarJumped (sel off : Word) (s u : State) : Prop := Transfer s u ((s.cpu.putSeg .cs sel).putIp off) s.bus []

/-- o and sel are the offset and segment words of a far pointer in memory (30 R426). -/
def FarPointer (s : State) (m : Mem) (o sel : Word) : Prop :=
  ReadsWord s.bus (s.seg (effSeg m s)) (effAddr m s) o ∧ ReadsWord s.bus (s.seg (effSeg m s)) (effAddr m s + 2) sel

/-- A near call of t has led from s to u (44 R1006, R1008). -/
def NearCalled (t : Word) (s u : State) : Prop :=
  CallTransfer s u ((s.cpu.put16 .sp (s.reg16 .sp - 2)).putIp t) (s.bus.storeWord (s.seg .ss) (s.reg16 .sp - 2) s.cpu.ip)
    (wordCells (s.seg .ss) (s.reg16 .sp - 2))

/-- A far call has led from s to u (44 R1007, R1009): CS, then the return offset, pushed. -/
def FarCalled (sel off : Word) (s u : State) : Prop :=
  CallTransfer s u (((s.cpu.put16 .sp (s.reg16 .sp - 4)).putSeg .cs sel).putIp off)
    ((s.bus.storeWord (s.seg .ss) (s.reg16 .sp - 2) (s.seg .cs)).storeWord (s.seg .ss) (s.reg16 .sp - 4) s.cpu.ip)
    (wordCells (s.seg .ss) (s.reg16 .sp - 2) ++ wordCells (s.seg .ss) (s.reg16 .sp - 4))

/-- A near return releasing n bytes has led from s to u (44 R1010, R1011). -/
def NearReturned (n : Word) (s u : State) : Prop :=
  ∃ t, TopWord s t ∧ Transfer s u ((s.cpu.put16 .sp (s.reg16 .sp + 2 + n)).putIp t) s.bus []

/-- A far return releasing n bytes has led from s to u (44 R1012, R1013). -/
def FarReturned (n : Word) (s u : State) : Prop :=
  ∃ o sel, TopWord s o ∧ ReadsWord s.bus (s.seg .ss) (s.reg16 .sp + 2) sel ∧
    Transfer s u (((s.cpu.put16 .sp (s.reg16 .sp + 4 + n)).putSeg .cs sel).putIp o) s.bus []

/-- A loop instruction with condition c has led from s to u (44 R1014 to R1016). -/
def Looped (c : Prop) (rel : Byte) (s u : State) : Prop :=
  let s1 := s.mapCpu fun x => x.put16 .cx (s.reg16 .cx - 1)
  (s.reg16 .cx - 1 ≠ 0 ∧ c → Jumped (s.cpu.ip + sext16 rel) s1 u) ∧ (¬ (s.reg16 .cx - 1 ≠ 0 ∧ c) → u = s1)

/-! Steps. -/

/-- The bytes already fetched: the queue's, and that of a code fetch in its data phase (21 R302, R322). -/
def fetchedBytes (b : Biu) : List Byte :=
  b.queue.map QueueByte.byte ++ (if b.fetching.isSome then b.cycle.incoming.toList else [])

/-- The bytes the instruction stream holds next: those already fetched, then memory's at CS:IP on (21 R320, R323, R325). -/
def streamByte (s : State) (k : Nat) : Byte :=
  match (fetchedBytes s.biu)[k]? with
  | some v => v
  | none => s.bus.byte (lin s.cpu.segs.cs (s.cpu.ip + BitVec.ofNat 16 k))

/-- The next six bytes, as long as the longest row. -/
def stream (s : State) : List Byte := (List.range 6).map (streamByte s)

/-- No byte of them lies in a device's granule. -/
def PlainCode (s : State) : Prop := ∀ k < 6, s.bus.isDevice (lin s.cpu.segs.cs (s.cpu.ip + BitVec.ofNat 16 k)) = false

/-- u is s after its next n instruction bytes have been fetched: IP is past them, and nothing else of the CPU, the bus, the
devices, the parameters and the marks has changed (10 R111, 21 R325). -/
def Fetched (n : Nat) (s u : State) : Prop :=
  u.cpu = s.cpu.putIp (s.cpu.ip + BitVec.ofNat 16 n) ∧ u.dev = s.dev ∧ Frame s u [] ∧ QueueBounded u ∧ QueueAligned u

/-- The machine step that a CPU step's outcome makes: the scheduler step follows a next state (31 R500), unless the prefixes of
the instruction go on in the next step (the model's choice, log 13). -/
def thenSchedule : StepResult → StepResult
  | .next t => .next (afterCpuStep t)
  | .fault f => .fault f
  | .refused r => .refused r

/-- What follows the meaning of a row: after a prefix the next row, after any other the end of the instruction (30 R410,
31 R502, R503). -/
def afterRow (n : Nat) (i : Instr) : StepResult → StepResult
  | .next u => if isPrefix i then runInstruction n u else .next (finishInstruction (setsInhibit i) u)
  | .fault f => .fault f
  | .refused r => .refused r

/-- The CPU step of s is no halted slice, REP step or stuck step (31 R501). -/
def Active (s : State) : Prop :=
  s.marks.fault = none ∧ s.marks.refusal = none ∧ s.cpu.halted = false ∧ s.cpu.repRun = none

/-- The CPU step of s begins at an instruction boundary. -/
def Running (s : State) : Prop := Active s ∧ s.cpu.decoding = false

/-- n clocks of a PIT counter (61 R1366). -/
def pitClocksOf : Nat → PitCounter → PitCounter
  | 0, c => c
  | n + 1, c => pitClocksOf n c.clock

/-- A PIT control word: the counter of sel, low byte then high byte, mode m, binary (61 R1352). -/
def controlWord (sel m : Byte) : Byte := (sel &&& 0xC0) ||| 0x30 ||| (m <<< 1)

/-- A counter given that control word and then both count bytes (61 R1354). -/
def programmedTo (c : PitCounter) (sel m lo hi : Byte) : PitCounter :=
  ((c.control (controlWord sel m)).writeCount lo).writeCount hi

/-- The count two bytes stand for, 65536 for 0 (61 R1355). -/
def countOf (lo hi : Byte) : Nat := if mkWord hi lo = 0 then 65536 else (mkWord hi lo).toNat

/-- The register of a level's bit cleared. -/
def cleared (x : Byte) (r : BitVec 3) : Byte := x &&& ~~~((1 : Byte) <<< r.toNat)

/-- One clock has led from the counter c to e: its tick, OUT and CE being free where the count is illegal (61 R1366, R1355). -/
def Ticked (c e : PitCounter) : Prop := ∃ o w, e = if c.free then { c.clock with out := o, ce := w } else c.clock

/-- One PIT clock has led from the devices d to e: the three ticks, then the clock's events, a change of OUT0 set on IR0 and a
rise of OUT1 requesting a refresh (61 R1302, R1366). -/
def PitTicked (d e : Devices) : Prop :=
  Ticked d.pit.c0 e.pit.c0 ∧ Ticked d.pit.c1 e.pit.c1 ∧ Ticked d.pit.c2 e.pit.c2 ∧
  e.pic = (if e.pit.c0.out = d.pit.c0.out then d.pic else d.pic.setLine 0 e.pit.c0.out) ∧
  e.refreshReq = (d.refreshReq || (e.pit.c1.out && !d.pit.c1.out)) ∧
  e.dma = d.dma ∧ e.ppiB = d.ppiB ∧ e.nmiMask = d.nmiMask

/-! DMA service (61 R1409, R1413, R1414). -/

/-- DREQ of channel q: the refresh request, or the environment's line, inverted by command bit 6. -/
def dreqOf (s : State) (q : BitVec 2) : Bool :=
  Bool.xor (if q = 0 then s.dev.refreshReq else s.env.dreq.getLsbD q.toNat) (s.dev.dma.command.getLsbD 6)

/-- Channel q asks for service. -/
def Asks (s : State) (q : BitVec 2) : Prop :=
  (dreqOf s q = true ∧ (s.dev.dma.get q).mask = false) ∨ (s.dev.dma.get q).req = true

/-- Channel q has priority over c: fixed, or rotating from the channel after `rot_last`. -/
def Before (d : Dma) (q c : BitVec 2) : Prop :=
  if d.command.getLsbD 4 then q - (d.rotLast + 1) < c - (d.rotLast + 1) else q < c

/-- c is the channel to serve, done being those that have reached terminal count in this step. -/
def Chosen (s : State) (done : List (BitVec 2)) (c : BitVec 2) : Prop :=
  Asks s c ∧ c ∉ done ∧ ∀ q, Before s.dev.dma q c → Asks s q → q ∈ done

/-- The forms of R1414 that are refused: memory to memory, cascade, transfer type 11, a software request in demand mode. -/
def RefusesDma (s : State) (c : BitVec 2) : Prop :=
  let x := s.dev.dma.get c
  (s.dev.dma.command.getLsbD 0 = true ∧ (c = 0 ∨ c = 1)) ∨ x.select = .cascade ∨ x.xfer = .illegal ∨
    (x.req = true ∧ x.select = .demand)

/-- n transfers on channel c. -/
def transfers (c : BitVec 2) : Nat → State → State
  | 0, s => s
  | n + 1, s => dmaTransfer c (transfers c n s)

/-- n transfers on channel c, the DREQ lines sampled after each (61 R1414, demand mode). -/
def sampledTransfers (c : BitVec 2) : Nat → State → State
  | 0, s => s
  | n + 1, s => sampleDreq (dmaTransfer c (sampledTransfers c n s))

/-- Channel c is the one served last (61 R1413). -/
def servedLast (c : BitVec 2) (s : State) : State := s.mapDma fun d => { d with rotLast := c }

/-- n transfers of a DMA channel's registers (61 R1410). -/
def dmaAdvances : Nat → DmaChannel → DmaChannel
  | 0, x => x
  | n + 1, x => dmaAdvances n x.advance

end Sys2Proof.Claims

open Sys2Proof Sys2Proof.Machine Sys2Proof.Claims

/-! Reset, registers, flags, addressing. -/

/-- 10 R150, 70 R1506, R1507, 61 R1310, R1320, R1340, R1343, R1367, R1407, R1415: the reset values the spec states; the
registers it calls unwritten hold 0 (log 2, the model's choice), of which this says only that no written mark is set. -/
def Obligations.ResetValues : Prop :=
  let c := State.reset.cpu
  let b := State.reset.biu
  c.segs.cs = 0xFFFF ∧ c.ip = 0 ∧ c.segs.ds = 0 ∧ c.segs.ss = 0 ∧ c.segs.es = 0 ∧ c.flags.image = 0xF002 ∧
  lin c.segs.cs c.ip = 0xFFFF0 ∧ (∀ r, c.written.get r = false) ∧
  c.halted = false ∧ c.inhibit = false ∧ c.nmiLatch = false ∧ c.nmiPrev = false ∧ c.tempTF = false ∧ c.trapPending = false ∧
  c.f1 = false ∧ c.repRun = none ∧ c.pfx = PrefixState.none ∧ c.ipStart = 0 ∧ c.ipLastPfx = 0 ∧
  b.queue = [] ∧ b.fetching = none ∧ b.pfp = 0 ∧ b.cycle.tstate = .ti ∧ b.cycle.busState = .passive ∧ b.cycle.pending = none ∧
  b.fetchSuspended = false ∧ State.reset.history = [] ∧ State.reset.marks.fault = none ∧ State.reset.marks.refusal = none ∧
  let d := State.reset.dev
  d.nmiMask = 0 ∧ d.refreshReq = false ∧ d.pic.init = .uninit ∧ d.pic.int = false ∧
  (∀ i : BitVec 2, (d.pit.get i).programmed = false ∧ (d.pit.get i).counting = false) ∧
  d.pit.c0.gate = true ∧ d.pit.c1.gate = true ∧ d.pit.c2.gate = d.ppiB.getLsbD 0 ∧
  (∀ i : BitVec 2, (d.dma.get i).mask = true ∧ (d.dma.get i).req = false ∧ (d.dma.get i).tc = false) ∧
  d.dma.command = 0 ∧ d.dma.temp = 0 ∧ d.dma.ff = false ∧ d.dma.rotLast = 3 ∧
  d.sched.sysFrac = 0 ∧ d.sched.pitRem = 0 ∧ d.sched.usFrac = 0 ∧ d.sched.extra = 0 ∧ d.sched.imminent = false

/-- 10 R102, R103: a byte register is a half of a word register; writing it changes that half and nothing else of the CPU's
registers. -/
def Obligations.RegisterHalves : Prop :=
  (∀ s : State, s.reg16 .ax = s.reg8 .ah ++ s.reg8 .al ∧ s.reg16 .bx = s.reg8 .bh ++ s.reg8 .bl ∧
    s.reg16 .cx = s.reg8 .ch ++ s.reg8 .cl ∧ s.reg16 .dx = s.reg8 .dh ++ s.reg8 .dl) ∧
  (∀ (s : State) (r q : Reg8) (v : Byte), (s.setReg8 r v).reg8 q = if q = r then v else s.reg8 q) ∧
  (∀ (s : State) (r : Reg8) (q : Reg16) (v : Byte), q ≠ wholeOf r → (s.setReg8 r v).reg16 q = s.reg16 q)

/-- 10 R121: a FLAGS word written and read back has its defined bits kept and the reserved bits at their fixed values, and
the flags survive the round trip. -/
def Obligations.FlagsImage : Prop :=
  (∀ w : Word, (flagsOfWord w).image = (w &&& 0x0FD5) ||| 0xF002) ∧ (∀ f : Flags, flagsOfWord f.image = f) ∧
  (∀ (f : Flags) (b : Byte), (f.setLow b).image = (f.image &&& 0xFF00) ||| ((b &&& 0xD5) ||| 0x02).setWidth 16)

/-- 41 R700: `SZP(r)`, at byte and word width. -/
def Obligations.SignZeroParity : Prop :=
  (∀ (f : Flags) (r : Byte), (f.szp r).sf = r.getLsbD 7 ∧ ((f.szp r).zf = true ↔ r = 0) ∧
    (f.szp r).pf = ((List.range 8).countP (fun i => r.getLsbD i) % 2 == 0)) ∧
  (∀ (f : Flags) (r : Word), (f.szp r).sf = r.getLsbD 15 ∧ ((f.szp r).zf = true ↔ r = 0) ∧
    (f.szp r).pf = ((List.range 8).countP (fun i => r.getLsbD i) % 2 == 0))

/-- 41 R701 and 10 R122: `AddFlags` at both widths, for every operand and carry. -/
def Obligations.AddFlagsExact : Prop :=
  (∀ (a b : Byte) (c : Bool) (f : Flags), AddSpec a b c f (addFlags a b c f)) ∧
  (∀ (a b : Word) (c : Bool) (f : Flags), AddSpec a b c f (addFlags a b c f))

/-- 41 R702 and 10 R122: `SubFlags` at both widths. -/
def Obligations.SubFlagsExact : Prop :=
  (∀ (a b : Byte) (c : Bool) (f : Flags), SubSpec a b c f (subFlags a b c f)) ∧
  (∀ (a b : Word) (c : Bool) (f : Flags), SubSpec a b c f (subFlags a b c f))

/-- 30 R421, R422: the effective address of every addressing mode, and its segment: the override if there is one, else SS for
the modes with BP and DS for the others. -/
def Obligations.EffectiveAddresses : Prop :=
  ∀ (s : State) (b : Base) (d8 : Byte) (d16 : Word),
    baseValue b s = (match b with
      | .bxSi => s.reg16 .bx + s.reg16 .si
      | .bxDi => s.reg16 .bx + s.reg16 .di
      | .bpSi => s.reg16 .bp + s.reg16 .si
      | .bpDi => s.reg16 .bp + s.reg16 .di
      | .si => s.reg16 .si
      | .di => s.reg16 .di
      | .bp => s.reg16 .bp
      | .bx => s.reg16 .bx) ∧
    effAddr (.base b) s = baseValue b s ∧ effAddr (.baseD8 b d8) s = baseValue b s + d8.signExtend 16 ∧
    effAddr (.baseD16 b d16) s = baseValue b s + d16 ∧ effAddr (.direct d16) s = d16 ∧
    (∀ r, s.cpu.pfx.segOverride = some r → ∀ m, effSeg m s = r) ∧
    (s.cpu.pfx.segOverride = none → effSeg (.direct d16) s = .ds ∧
      ∀ m, m = .base b ∨ m = .baseD8 b d8 ∨ m = .baseD16 b d16 →
        effSeg m s = if b = .bpSi ∨ b = .bpDi ∨ b = .bp then .ss else .ds)

/-! Arithmetic and logic. -/

/-- 41 R703, R705 to R709, 42 R800 to R803: the eight ALU operations in their four byte forms and their five word forms, the
immediate of 83 being sign-extended, complete with the operation's result and flags; CMP writes no destination; nothing else
changes. -/
def Obligations.AluForms : Prop :=
  ∀ (op : AluOp) (s : State),
    (∀ e g, ∃ t, exec (aluEbGb op e g) s = .next t ∧ AluByte op e (s.reg8 g) s t) ∧
    (∀ g e, ∃ t, exec (aluGbEb op g e) s = .next t ∧ AluRegByte op g e s t) ∧
    (∀ i, ∃ t, exec (aluAlIb op i) s = .next t ∧ AluByte op (.reg .al) i s t) ∧
    (∀ e i, ∃ t, exec (aluEbIb op e i) s = .next t ∧ AluByte op e i s t) ∧
    (∀ e g, ∃ t, exec (aluEvGv op e g) s = .next t ∧ AluWord op e (s.reg16 g) s t) ∧
    (∀ g e, ∃ t, exec (aluGvEv op g e) s = .next t ∧ AluRegWord op g e s t) ∧
    (∀ i, ∃ t, exec (aluAxIw op i) s = .next t ∧ AluWord op (.reg .ax) i s t) ∧
    (∀ e i, ∃ t, exec (aluEvIw op e i) s = .next t ∧ AluWord op e i s t) ∧
    (∀ e (i : Byte), ∃ t, exec (aluEvIbSx op e i) s = .next t ∧ AluWord op e (i.signExtend 16) s t)

/-- 42 R804: TEST in its six forms writes flags only. -/
def Obligations.TestForms : Prop :=
  ∀ s : State,
    (∀ e g, ∃ t, exec (.testEbGb e g) s = .next t ∧ TestByte e (s.reg8 g) s t) ∧
    (∀ e g, ∃ t, exec (.testEvGv e g) s = .next t ∧ TestWord e (s.reg16 g) s t) ∧
    (∀ i, ∃ t, exec (.testAlIb i) s = .next t ∧ TestByte (.reg .al) i s t) ∧
    (∀ i, ∃ t, exec (.testAxIw i) s = .next t ∧ TestWord (.reg .ax) i s t) ∧
    (∀ e i, ∃ t, exec (.testEbIb e i) s = .next t ∧ TestByte e i s t) ∧
    (∀ e i, ∃ t, exec (.testEvIw e i) s = .next t ∧ TestWord e i s t)

/-- 41 R710 to R714, 42 R805: INC and DEC move the operand by 1 with the flags of the addition or subtraction, but CF is kept;
NEG subtracts the operand from 0 with all six flags, CF saying it was not 0 and OF that it was the most negative value; NOT
complements it and changes no flag. -/
def Obligations.UnaryForms : Prop :=
  (∀ s : State,
    let f := s.cpu.flags
    (∀ r, ∃ t, exec (.incR16 r) s = .next t ∧
      Effect s t ((s.cpu.putFlags { addFlags (s.reg16 r) 1 false f with cf := f.cf }).put16 r (s.reg16 r + 1)) s.bus []) ∧
    (∀ r, ∃ t, exec (.decR16 r) s = .next t ∧
      Effect s t ((s.cpu.putFlags { subFlags (s.reg16 r) 1 false f with cf := f.cf }).put16 r (s.reg16 r - 1)) s.bus []) ∧
    (∀ e, ∃ t, exec (.incEb e) s = .next t ∧
      UnaryByte e (fun a => a + 1) (fun a => { addFlags a 1 false f with cf := f.cf }) s t) ∧
    (∀ e, ∃ t, exec (.decEb e) s = .next t ∧
      UnaryByte e (fun a => a - 1) (fun a => { subFlags a 1 false f with cf := f.cf }) s t) ∧
    (∀ e, ∃ t, exec (.incEv e) s = .next t ∧
      UnaryWord e (fun a => a + 1) (fun a => { addFlags a 1 false f with cf := f.cf }) s t) ∧
    (∀ e, ∃ t, exec (.decEv e) s = .next t ∧
      UnaryWord e (fun a => a - 1) (fun a => { subFlags a 1 false f with cf := f.cf }) s t)) ∧
  ((∀ s : State,
    (∀ e, ∃ t, exec (.negEb e) s = .next t ∧ UnaryByte e (fun a => 0 - a) (fun a => subFlags 0 a false s.cpu.flags) s t) ∧
    (∀ e, ∃ t, exec (.negEv e) s = .next t ∧ UnaryWord e (fun a => 0 - a) (fun a => subFlags 0 a false s.cpu.flags) s t) ∧
    (∀ e, ∃ t, exec (.notEb e) s = .next t ∧ UnaryByte e (fun a => ~~~a) (fun _ => s.cpu.flags) s t) ∧
    (∀ e, ∃ t, exec (.notEv e) s = .next t ∧ UnaryWord e (fun a => ~~~a) (fun _ => s.cpu.flags) s t)) ∧
  (∀ (f : Flags) (a : Byte), ((subFlags 0 a false f).cf = true ↔ a ≠ 0) ∧ ((subFlags 0 a false f).ovf = true ↔ a = 0x80)) ∧
  (∀ (f : Flags) (a : Word), ((subFlags 0 a false f).cf = true ↔ a ≠ 0) ∧ ((subFlags 0 a false f).ovf = true ↔ a = 0x8000)))

/-- 41 R720, R721, R730: MUL writes the unsigned product to AX, or DX:AX, negated modulo its width only under
`REP_NEGATE_UNSIGNED` with a REP prefix, and CF and OF say that the high half written is not 0 (after a negation the model's
reading, log 19); IMUL writes the signed product, negated when F1 is set, and CF and OF say that it is not the sign extension
of its low half. SF, ZF, AF, PF are free. -/
def Obligations.MultiplyForms : Prop :=
  (∀ s : State,
    (∀ e, ∃ v sf zf af pf t, OpByte s e v ∧ exec (.mulEb e) s = .next t ∧
      let n := (s.reg8 .al).toNat * v.toNat
      let p : Word := if negatesMul s then -BitVec.ofNat 16 n else BitVec.ofNat 16 n
      let big := hiByte p != 0
      Effect s t ((s.cpu.putFlags { s.cpu.flags with cf := big, ovf := big, sf := sf, zf := zf, af := af, pf := pf }).put16
        .ax p) s.bus []) ∧
    (∀ e, ∃ v sf zf af pf t, OpWord s e v ∧ exec (.mulEv e) s = .next t ∧
      let n := (s.reg16 .ax).toNat * v.toNat
      let p : BitVec 32 := if negatesMul s then -BitVec.ofNat 32 n else BitVec.ofNat 32 n
      let hi : Word := BitVec.ofNat 16 (p.toNat / 2 ^ 16)
      let big := hi != 0
      Effect s t (((s.cpu.putFlags { s.cpu.flags with cf := big, ovf := big, sf := sf, zf := zf, af := af, pf := pf }).put16
        .ax (BitVec.ofNat 16 p.toNat)).put16 .dx hi) s.bus [])) ∧
  (∀ s : State,
    (∀ e, ∃ v sf zf af pf t, OpByte s e v ∧ exec (.imulEb e) s = .next t ∧
      let p : Int := (s.reg8 .al).toInt * v.toInt
      let q : Int := if s.cpu.f1 then -p else p
      let ax := BitVec.ofInt 16 q
      let big := ax != (loByte ax).signExtend 16
      Effect s t ((s.cpu.putFlags { s.cpu.flags with cf := big, ovf := big, sf := sf, zf := zf, af := af, pf := pf }).put16
        .ax ax) s.bus []) ∧
    (∀ e, ∃ v sf zf af pf t, OpWord s e v ∧ exec (.imulEv e) s = .next t ∧
      let p : Int := (s.reg16 .ax).toInt * v.toInt
      let q : Int := if s.cpu.f1 then -p else p
      let dxax := BitVec.ofInt 32 q
      let ax : Word := dxax.setWidth 16
      let big := dxax != ax.signExtend 32
      Effect s t (((s.cpu.putFlags { s.cpu.flags with cf := big, ovf := big, sf := sf, zf := zf, af := af, pf := pf }).put16
        .ax ax).put16 .dx (dxax.extractLsb' 16 16)) s.bus []))

/-- 41 R722 to R724, R734: DIV raises the divide error for a divisor of 0 or a quotient that does not fit, writing no register;
else it writes quotient and remainder, the quotient negated only under `REP_NEGATE_UNSIGNED` with a REP prefix. IDIV divides
rounding toward zero; a divisor of 0 or a quotient outside -127 to 127 (-32767 to 32767) raises the divide error; F1 negates
the quotient and not the remainder. The six arithmetic flags are free. -/
def Obligations.DivideForms : Prop :=
  (∀ s : State,
    (∀ e, ∃ v t, OpByte s e v ∧ exec (.divEb e) s = .next t ∧
      let n := (s.reg16 .ax).toNat
      let d := v.toNat
      (d = 0 ∨ n / d > 0xFF → DivideError s t) ∧
      (¬ (d = 0 ∨ n / d > 0xFF) → ∃ f, KeepsControl s.cpu.flags f ∧
        Effect s t ((s.cpu.putFlags f).put16 .ax (mkWord (BitVec.ofNat 8 (n % d))
          (if negatesMul s then -BitVec.ofNat 8 (n / d) else BitVec.ofNat 8 (n / d)))) s.bus [])) ∧
    (∀ e, ∃ v t, OpWord s e v ∧ exec (.divEv e) s = .next t ∧
      let n := (s.reg16 .dx).toNat * 2 ^ 16 + (s.reg16 .ax).toNat
      let d := v.toNat
      (d = 0 ∨ n / d > 0xFFFF → DivideError s t) ∧
      (¬ (d = 0 ∨ n / d > 0xFFFF) → ∃ f, KeepsControl s.cpu.flags f ∧
        Effect s t (((s.cpu.putFlags f).put16 .ax
          (if negatesMul s then -BitVec.ofNat 16 (n / d) else BitVec.ofNat 16 (n / d))).put16 .dx (BitVec.ofNat 16 (n % d)))
          s.bus []))) ∧
  (∀ s : State,
    (∀ e, ∃ v t, OpByte s e v ∧ exec (.idivEb e) s = .next t ∧
      let n := (s.reg16 .ax).toInt
      let d := v.toInt
      let q := Int.tdiv n d
      (d = 0 ∨ q > 127 ∨ q < -127 → DivideError s t) ∧
      (¬ (d = 0 ∨ q > 127 ∨ q < -127) → ∃ f, KeepsControl s.cpu.flags f ∧
        Effect s t ((s.cpu.putFlags f).put16 .ax (mkWord (BitVec.ofInt 8 (n - q * d))
          (BitVec.ofInt 8 (if s.cpu.f1 then -q else q)))) s.bus [])) ∧
    (∀ e, ∃ v t, OpWord s e v ∧ exec (.idivEv e) s = .next t ∧
      let n : Int := (s.reg16 .dx).toInt * 2 ^ 16 + (s.reg16 .ax).toNat
      let d := v.toInt
      let q := Int.tdiv n d
      (d = 0 ∨ q > 32767 ∨ q < -32767 → DivideError s t) ∧
      (¬ (d = 0 ∨ q > 32767 ∨ q < -32767) → ∃ f, KeepsControl s.cpu.flags f ∧
        Effect s t (((s.cpu.putFlags f).put16 .ax (BitVec.ofInt 16 (if s.cpu.f1 then -q else q))).put16 .dx
          (BitVec.ofInt 16 (n - q * d))) s.bus [])))

/-- 41 R740 to R743: DAA and DAS: the two tests on the old AL, AF and CF, the adjustment of AL, SZP of the new AL; OF is free.
AAA and AAS: the adjustment moves AL by 6 and AH by exactly 1, AL keeps its low digit, AF and CF say that it happened; OF, SF,
ZF, PF are free. -/
def Obligations.DecimalAsciiAdjusts : Prop :=
  (∀ s : State,
    let al := s.reg8 .al
    let f := s.cpu.flags
    let low := decide (al.toNat % 16 > 9) || f.af
    let limit := if s.params.daaThreshold = .afDependent ∧ f.af = true then 0x9F else 0x99
    let high := decide (al.toNat > limit) || f.cf
    (∃ o t, exec .daa s = .next t ∧
      let r : Byte := al + (if low then 0x06 else 0) + (if high then 0x60 else 0)
      Effect s t ((s.cpu.putFlags { f.szp r with af := low, cf := high, ovf := o }).put8 .al r) s.bus []) ∧
    (∃ o t, exec .das s = .next t ∧
      let r : Byte := al - (if low then 0x06 else 0) - (if high then 0x60 else 0)
      Effect s t ((s.cpu.putFlags { f.szp r with af := low, cf := high, ovf := o }).put8 .al r) s.bus [])) ∧
  (∀ s : State,
    let al := s.reg8 .al
    let ah := s.reg8 .ah
    let adj := decide (al.toNat % 16 > 9) || s.cpu.flags.af
    (∃ o sf zf pf t, exec .aaa s = .next t ∧
      Effect s t ((s.cpu.putFlags { s.cpu.flags with af := adj, cf := adj, ovf := o, sf := sf, zf := zf, pf := pf }).put16 .ax
        (if adj then (ah + 1) ++ ((al + 6) &&& 0x0F) else ah ++ (al &&& 0x0F))) s.bus []) ∧
    (∃ o sf zf pf t, exec .aas s = .next t ∧
      Effect s t ((s.cpu.putFlags { s.cpu.flags with af := adj, cf := adj, ovf := o, sf := sf, zf := zf, pf := pf }).put16 .ax
        (if adj then (ah - 1) ++ ((al - 6) &&& 0x0F) else ah ++ (al &&& 0x0F))) s.bus []))

/-- 41 R744, R745: AAM divides AL by the immediate, base 0 raising the divide error; AAD gathers AH and AL; SZP of the new AL,
and CF, OF, AF free. -/
def Obligations.AsciiMulDiv : Prop :=
  ∀ (s : State) (i : Byte),
    (∃ t, exec (.aamIb i) s = .next t ∧
      (i = 0 → DivideError s t) ∧
      (i ≠ 0 → ∃ c o a, let r := BitVec.ofNat 8 ((s.reg8 .al).toNat % i.toNat)
        Effect s t ((s.cpu.putFlags { s.cpu.flags.szp r with cf := c, ovf := o, af := a }).put16 .ax
          (BitVec.ofNat 8 ((s.reg8 .al).toNat / i.toNat) ++ r)) s.bus [])) ∧
    (∃ c o a t, exec (.aadIb i) s = .next t ∧
      let r := BitVec.ofNat 8 ((s.reg8 .al).toNat + (s.reg8 .ah).toNat * i.toNat)
      Effect s t ((s.cpu.putFlags { s.cpu.flags.szp r with cf := c, ovf := o, af := a }).put16 .ax ((0 : Byte) ++ r)) s.bus [])

/-- 41 R750, R751, 40 R630, R631: CBW and CWD extend the sign; LAHF reads the low byte of the FLAGS image into AH; SAHF writes
the five flags of the low byte. -/
def Obligations.ExtendAndFlagBytes : Prop :=
  ∀ s : State,
    (∃ t, exec .cbw s = .next t ∧
      Effect s t (s.cpu.put16 .ax ((if (s.reg8 .al).getLsbD 7 then (0xFF : Byte) else 0) ++ s.reg8 .al)) s.bus []) ∧
    (∃ t, exec .cwd s = .next t ∧
      Effect s t (s.cpu.put16 .dx (if (s.reg16 .ax).getLsbD 15 then 0xFFFF else 0)) s.bus []) ∧
    (∃ t, exec .lahf s = .next t ∧ Effect s t (s.cpu.put8 .ah (s.cpu.flags.image.setWidth 8)) s.bus []) ∧
    (∃ t, exec .sahf s = .next t ∧
      Effect s t (s.cpu.putFlags { s.cpu.flags with
        sf := (s.reg8 .ah).getLsbD 7, zf := (s.reg8 .ah).getLsbD 6, af := (s.reg8 .ah).getLsbD 4
        pf := (s.reg8 .ah).getLsbD 2, cf := (s.reg8 .ah).getLsbD 0 }) s.bus [])

/-- 42 R810 to R817: n steps of a shift or rotate in closed form, whatever the count: what stands in the operand, and CF after
at least one step; and OF of the seven operations for a count of 1. -/
def Obligations.ShiftStepsClosed : Prop :=
  ∀ (w : Nat), w = 8 ∨ w = 16 → ∀ (x : BitVec w) (cf : Bool) (n : Nat),
    (shiftSteps .shl n x cf).1 = x <<< n ∧ (shiftSteps .shr n x cf).1 = x >>> n ∧
    (shiftSteps .sar n x cf).1 = x.sshiftRight n ∧
    (shiftSteps .rol n x cf).1 = x.rotateLeft n ∧ (shiftSteps .ror n x cf).1 = x.rotateRight n ∧
    (BitVec.ofBool (shiftSteps .rcl n x cf).2 ++ (shiftSteps .rcl n x cf).1) = (BitVec.ofBool cf ++ x).rotateLeft n ∧
    (BitVec.ofBool (shiftSteps .rcr n x cf).2 ++ (shiftSteps .rcr n x cf).1) = (BitVec.ofBool cf ++ x).rotateRight n ∧
    (0 < n →
      (shiftSteps .shl n x cf).2 = (decide (n ≤ w) && x.getLsbD (w - n)) ∧ (shiftSteps .shr n x cf).2 = x.getLsbD (n - 1) ∧
      (shiftSteps .sar n x cf).2 = (x.sshiftRight (n - 1)).getLsbD 0 ∧
      (shiftSteps .rol n x cf).2 = (x.rotateLeft n).getLsbD 0 ∧ (shiftSteps .ror n x cf).2 = (x.rotateRight n).msb) ∧
    (∀ op, shiftOverflow op x (shiftSteps op 1 x cf).1 (shiftSteps op 1 x cf).2 = overflowOfOne op x cf)

/-- 42 R810 to R817: the seven shifts and rotates in their four forms, by 1 and by all of CL: the steps' value and CF, SF, ZF
and PF for the shifts only, OF in closed form for a count of 1 (`overflowOfOne`), and nothing at all for a count of 0. -/
def Obligations.ShiftForms : Prop :=
  ∀ (op : ShiftOp) (s : State),
    (∀ e, ∃ t, exec (shiftEb1 op e) s = .next t ∧ ShiftByte op 1 e s t) ∧
    (∀ e, ∃ t, exec (shiftEv1 op e) s = .next t ∧ ShiftWord op 1 e s t) ∧
    (∀ e, ∃ t, exec (shiftEbCl op e) s = .next t ∧ ShiftByte op (countCl s) e s t) ∧
    (∀ e, ∃ t, exec (shiftEvCl op e) s = .next t ∧ ShiftWord op (countCl s) e s t)

/-- 41 R752, 42 R818, 30 R455, under `UNDOC_MODE = alias`: SALC spreads CF over AL; SETMO and SETMOC write all ones, SETMOC only
for CL ≠ 0; every alias does what its documented instruction does. -/
def Obligations.UndocumentedRows : Prop :=
  (∀ s : State, s.params.undocMode = .asAlias →
    (∃ t, exec .salc s = .next t ∧ Effect s t (s.cpu.put8 .al (if s.cpu.flags.cf then 0xFF else 0)) s.bus []) ∧
    (∀ e, ∃ t, exec (.setmoEb1 e) s = .next t ∧ SetmoByte 1 e s t) ∧
    (∀ e, ∃ t, exec (.setmoEv1 e) s = .next t ∧ SetmoWord 1 e s t) ∧
    (∀ e, ∃ t, exec (.setmocEbCl e) s = .next t ∧ SetmoByte (countCl s) e s t) ∧
    (∀ e, ∃ t, exec (.setmocEvCl e) s = .next t ∧ SetmoWord (countCl s) e s t)) ∧
  (∀ (i d : Instr) (op : Byte) (s : State), documented i = some (d, op) → s.params.undocMode = .asAlias →
    ∃ t, exec d s = .next t ∧ exec i s = .next t)

/-! Data transfer. -/

/-- 40 R601, R606 to R608: MOV between operand and register, and of an immediate: the destination takes the value; no flag
and nothing else changes. -/
def Obligations.MovForms : Prop :=
  ∀ s : State,
    (∀ e g, ∃ t, exec (.movEbGb e g) s = .next t ∧
      Effect s t (cpuPut8 e (s.reg8 g) s.cpu) (busPut8 s e (s.reg8 g)) (cells8 s e)) ∧
    (∀ e g, ∃ t, exec (.movEvGv e g) s = .next t ∧
      Effect s t (cpuPut16 e (s.reg16 g) s.cpu) (busPut16 s e (s.reg16 g)) (cells16 s e)) ∧
    (∀ g e, ∃ v t, OpByte s e v ∧ exec (.movGbEb g e) s = .next t ∧ Effect s t (s.cpu.put8 g v) s.bus []) ∧
    (∀ g e, ∃ v t, OpWord s e v ∧ exec (.movGvEv g e) s = .next t ∧ Effect s t (s.cpu.put16 g v) s.bus []) ∧
    (∀ r i, ∃ t, exec (.movR8Ib r i) s = .next t ∧ Effect s t (s.cpu.put8 r i) s.bus []) ∧
    (∀ r i, ∃ t, exec (.movR16Iw r i) s = .next t ∧ Effect s t (s.cpu.put16 r i) s.bus []) ∧
    (∀ e i, ∃ t, exec (.movEbIb e i) s = .next t ∧ Effect s t (cpuPut8 e i s.cpu) (busPut8 s e i) (cells8 s e)) ∧
    (∀ e i, ∃ t, exec (.movEvIw e i) s = .next t ∧ Effect s t (cpuPut16 e i s.cpu) (busPut16 s e i) (cells16 s e))

/-- 40 R602, R603: MOV between a segment register and a word operand; CS can be read and not written. -/
def Obligations.MovSegmentForms : Prop :=
  ∀ s : State,
    (∀ e r, ∃ t, exec (.movEwSw e r) s = .next t ∧
      Effect s t (cpuPut16 e (s.seg r) s.cpu) (busPut16 s e (s.seg r)) (cells16 s e)) ∧
    (∀ e, ∃ v t, OpWord s e v ∧ exec (.movEsEw e) s = .next t ∧ Effect s t (s.cpu.putSeg .es v) s.bus []) ∧
    (∀ e, ∃ v t, OpWord s e v ∧ exec (.movSsEw e) s = .next t ∧ Effect s t (s.cpu.putSeg .ss v) s.bus []) ∧
    (∀ e, ∃ v t, OpWord s e v ∧ exec (.movDsEw e) s = .next t ∧ Effect s t (s.cpu.putSeg .ds v) s.bus [])

/-- 40 R604, R605, R626: the accumulator moves of a direct offset, and XLAT, in the override's segment or DS. -/
def Obligations.MoffsXlatForms : Prop :=
  ∀ s : State,
    let base := s.seg (s.cpu.pfx.segOverride.getD .ds)
    (∀ off, ∃ v t, ReadsByte s.bus base off v ∧ exec (.movAlMoffs off) s = .next t ∧ Effect s t (s.cpu.put8 .al v) s.bus []) ∧
    (∀ off, ∃ v t, ReadsWord s.bus base off v ∧ exec (.movAxMoffs off) s = .next t ∧ Effect s t (s.cpu.put16 .ax v) s.bus []) ∧
    (∀ off, ∃ t, exec (.movMoffsAl off) s = .next t ∧
      Effect s t s.cpu (s.bus.store (lin base off) (s.reg8 .al)) [lin base off]) ∧
    (∀ off, ∃ t, exec (.movMoffsAx off) s = .next t ∧
      Effect s t s.cpu (s.bus.storeWord base off (s.reg16 .ax)) (wordCells base off)) ∧
    (∃ v t, ReadsByte s.bus base (s.reg16 .bx + (s.reg8 .al).setWidth 16) v ∧ exec .xlat s = .next t ∧
      Effect s t (s.cpu.put8 .al v) s.bus [])

/-- 40 R610 to R612, R616: every PUSH moves SP down by 2 and writes the word at the new SS:SP; PUSH SP pushes the decremented
SP; PUSHF pushes the FLAGS image. -/
def Obligations.PushForms : Prop :=
  ∀ s : State,
    (∀ r, ∃ t, exec (.pushR16 r) s = .next t ∧ Pushed (if r = .sp then s.reg16 .sp - 2 else s.reg16 r) s t) ∧
    (∃ t, exec .pushEs s = .next t ∧ Pushed (s.seg .es) s t) ∧
    (∃ t, exec .pushCs s = .next t ∧ Pushed (s.seg .cs) s t) ∧
    (∃ t, exec .pushSs s = .next t ∧ Pushed (s.seg .ss) s t) ∧
    (∃ t, exec .pushDs s = .next t ∧ Pushed (s.seg .ds) s t) ∧
    (∀ r, ∃ t, exec (.pushEv (.reg r)) s = .next t ∧ Pushed (if r = .sp then s.reg16 .sp - 2 else s.reg16 r) s t) ∧
    (∀ m, ∃ v t, OpWord s (.mem m) v ∧ exec (.pushEv (.mem m)) s = .next t ∧ Pushed v s t) ∧
    (∃ t, exec .pushf s = .next t ∧ Pushed s.cpu.flags.image s t)

/-- 40 R613 to R615, R617: every POP reads the word at SS:SP, moves SP up by 2 and then writes the destination, so that POP SP
leaves the popped word; POPF writes the defined flags. -/
def Obligations.PopForms : Prop :=
  ∀ s : State,
    (∀ r, ∃ v t, TopWord s v ∧ exec (.popR16 r) s = .next t ∧ Effect s t ((popCpu s).put16 r v) s.bus []) ∧
    (∃ v t, TopWord s v ∧ exec .popEs s = .next t ∧ Effect s t ((popCpu s).putSeg .es v) s.bus []) ∧
    (∃ v t, TopWord s v ∧ exec .popSs s = .next t ∧ Effect s t ((popCpu s).putSeg .ss v) s.bus []) ∧
    (∃ v t, TopWord s v ∧ exec .popDs s = .next t ∧ Effect s t ((popCpu s).putSeg .ds v) s.bus []) ∧
    (∀ e, ∃ v t, TopWord s v ∧ exec (.popEv e) s = .next t ∧
      Effect s t (cpuPut16 e v (popCpu s)) (busPut16 s e v) (cells16 s e)) ∧
    (∃ v t, TopWord s v ∧ exec .popf s = .next t ∧ Effect s t ((popCpu s).putFlags (flagsOfWord v)) s.bus [])

/-- 31 R552: a register pushed and popped again comes back, with SP where it was, and memory unchanged but for the word below
the old SP; PUSHF followed by POPF leaves the flags. The stack word must be writable memory (20 R212), and memory in its
canonical form, which every step keeps. -/
def Obligations.PushPopRoundTrip : Prop :=
  ∀ s : State, Memory.wf s.bus.mem = true →
    (∀ a ∈ wordCells (s.seg .ss) (s.reg16 .sp - 2), s.bus.writable a = true) →
    (∀ r, r ≠ .sp → ∃ t u, exec (.pushR16 r) s = .next t ∧ exec (.popR16 r) t = .next u ∧ u.cpu.regs = s.cpu.regs ∧
      ∀ a, a ∉ wordCells (s.seg .ss) (s.reg16 .sp - 2) → u.bus.byte a = s.bus.byte a) ∧
    (∃ t u, exec .pushf s = .next t ∧ exec .popf t = .next u ∧ u.cpu.flags = s.cpu.flags ∧ u.cpu.regs = s.cpu.regs)

/-- 40 R620, R621: XCHG swaps operand and register: both are read before either is written. -/
def Obligations.XchgForms : Prop :=
  ∀ s : State,
    (∀ e g, ∃ a t, OpByte s e a ∧ exec (.xchgEbGb e g) s = .next t ∧
      Effect s t (cpuPut8 e (s.reg8 g) (s.cpu.put8 g a)) (busPut8 s e (s.reg8 g)) (cells8 s e)) ∧
    (∀ e g, ∃ a t, OpWord s e a ∧ exec (.xchgEvGv e g) s = .next t ∧
      Effect s t (cpuPut16 e (s.reg16 g) (s.cpu.put16 g a)) (busPut16 s e (s.reg16 g)) (cells16 s e)) ∧
    (∀ r, ∃ t, exec (.xchgAxR16 r) s = .next t ∧
      Effect s t ((s.cpu.put16 .ax (s.reg16 r)).put16 r (s.reg16 .ax)) s.bus [])

/-- 40 R622 to R625, 20 R230: IN reads the port into AL, or the port and the next port into AX, with the device's side effects;
in each byte read, an unclaimed port gives `UNMAPPED_IO_READ`, port 0x61 the PPI latch, port 0x21 the mask of an initialised
PIC. OUT writes AL to the port, or AL and AH to the port and the next port; in each byte written, an unclaimed port drops it,
port 0xA0 is the NMI mask latch, port 0x61 the PPI latch. -/
def Obligations.InOutForms : Prop :=
  ∀ s : State,
    (∀ i : Byte, ∃ t, exec (.inAlIb i) s = .next t ∧ InByte (i.setWidth 16) s t) ∧
    (∀ i : Byte, ∃ t, exec (.inAxIb i) s = .next t ∧ InWord (i.setWidth 16) s t) ∧
    (∃ t, exec .inAlDx s = .next t ∧ InByte (s.reg16 .dx) s t) ∧
    (∃ t, exec .inAxDx s = .next t ∧ InWord (s.reg16 .dx) s t) ∧
    (∀ i : Byte, ∃ t, exec (.outIbAl i) s = .next t ∧ OutByte (i.setWidth 16) (s.reg8 .al) s t) ∧
    (∀ i : Byte, ∃ t, exec (.outIbAx i) s = .next t ∧ OutWord (i.setWidth 16) (s.reg16 .ax) s t) ∧
    (∃ t, exec .outDxAl s = .next t ∧ OutByte (s.reg16 .dx) (s.reg8 .al) s t) ∧
    (∃ t, exec .outDxAx s = .next t ∧ OutWord (s.reg16 .dx) (s.reg16 .ax) s t)

/-- 40 R627 to R629: LEA loads the effective address with no memory access; LDS and LES load the offset and the segment word
of a far pointer. -/
def Obligations.AddressLoadForms : Prop :=
  ∀ (s : State) (g : Reg16) (m : Mem),
    (∃ t, exec (.leaGvM g m) s = .next t ∧ Effect s t (s.cpu.put16 g (effAddr m s)) s.bus [] ∧ t.history = s.history) ∧
    (∃ o sel t, FarPointer s m o sel ∧ exec (.ldsGvMp g m) s = .next t ∧
      Effect s t ((s.cpu.put16 g o).putSeg .ds sel) s.bus []) ∧
    (∃ o sel t, FarPointer s m o sel ∧ exec (.lesGvMp g m) s = .next t ∧
      Effect s t ((s.cpu.put16 g o).putSeg .es sel) s.bus [])

/-! Strings. -/

/-- 43 R900 to R906, R910: a string instruction with no REP prefix performs one iteration; with a REP prefix, CX = 0 skips the
operation entirely, and any other CX performs one iteration, decrements CX and ends the run or leaves it to the next step. -/
def Obligations.StringForms : Prop :=
  (∀ (op : StringOp) (wide : Bool) (s : State), s.cpu.pfx.rep = none →
    ∃ t, exec (stringOf op wide) s = .next t ∧ Iteration op wide s.cpu.pfx.segOverride s t) ∧
  (∀ (op : StringOp) (wide : Bool) (k : RepKind) (s : State), s.cpu.pfx.rep = some k →
    (s.reg16 .cx = 0 → exec (stringOf op wide) s = .next s) ∧
    (s.reg16 .cx ≠ 0 → ∃ t, exec (stringOf op wide) s = .next t ∧ RepIteration (runOf op wide k s) s t))

/-! Control transfer. -/

/-- 44 R1000 to R1002, R1004, R1005: the unconditional jumps. -/
def Obligations.JumpForms : Prop :=
  ∀ s : State,
    (∀ rel : Byte, ∃ t, exec (.jmpRel8 rel) s = .next t ∧ Jumped (s.cpu.ip + rel.signExtend 16) s t) ∧
    (∀ rel, ∃ t, exec (.jmpRel16 rel) s = .next t ∧ Jumped (s.cpu.ip + rel) s t) ∧
    (∀ off seg, ∃ t, exec (.jmpPtr off seg) s = .next t ∧ FarJumped seg off s t) ∧
    (∀ e, ∃ v t, OpWord s e v ∧ exec (.jmpEv e) s = .next t ∧ Jumped v s t) ∧
    (∀ m, ∃ o sel t, FarPointer s m o sel ∧ exec (.jmpMp m) s = .next t ∧ FarJumped sel o s t)

/-- 44 R1003: the sixteen conditional jumps: the encoding, the target when the condition holds, and nothing at all when it
does not. -/
def Obligations.ConditionalJumps : Prop :=
  ∀ (cc : Fin 16) (rel : Byte) (s : State),
    encode (jcc cc rel) = [BitVec.ofNat 8 (0x70 + cc.val), rel] ∧
    ∃ t, exec (jcc cc rel) s = .next t ∧ (holds cc s.cpu.flags → Jumped (s.cpu.ip + rel.signExtend 16) s t) ∧
      (¬ holds cc s.cpu.flags → t = s)

/-- 44 R1006 to R1013: near and far calls push what the returns pop; a return's immediate releases stack. Which clock of a call
shows its flush, the last one, or the one before with the data phase of its push last, is the model's choice (log 24). -/
def Obligations.CallReturnForms : Prop :=
  ∀ s : State,
    (∀ rel, ∃ t, exec (.callRel16 rel) s = .next t ∧ NearCalled (s.cpu.ip + rel) s t) ∧
    (∀ off seg, ∃ t, exec (.callPtr off seg) s = .next t ∧ FarCalled seg off s t) ∧
    (∀ e, ∃ v t, OpWord s e v ∧ exec (.callEv e) s = .next t ∧ NearCalled v s t) ∧
    (∀ m, ∃ o sel t, FarPointer s m o sel ∧ exec (.callMp m) s = .next t ∧ FarCalled sel o s t) ∧
    (∃ t, exec .ret s = .next t ∧ NearReturned 0 s t) ∧
    (∀ i, ∃ t, exec (.retIw i) s = .next t ∧ NearReturned i s t) ∧
    (∃ t, exec .retf s = .next t ∧ FarReturned 0 s t) ∧
    (∀ i, ∃ t, exec (.retfIw i) s = .next t ∧ FarReturned i s t)

/-- 44 R1014 to R1017: the loop instructions decrement CX and jump while it is not 0 (and ZF is 1, or 0); JCXZ jumps when CX
is 0 and writes nothing. -/
def Obligations.LoopForms : Prop :=
  ∀ (rel : Byte) (s : State),
    (∃ t, exec (.loop rel) s = .next t ∧ Looped True rel s t) ∧
    (∃ t, exec (.loopz rel) s = .next t ∧ Looped (s.cpu.flags.zf = true) rel s t) ∧
    (∃ t, exec (.loopnz rel) s = .next t ∧ Looped (s.cpu.flags.zf = false) rel s t) ∧
    (∃ t, exec (.jcxz rel) s = .next t ∧ (s.reg16 .cx = 0 → Jumped (s.cpu.ip + rel.signExtend 16) s t) ∧
      (s.reg16 .cx ≠ 0 → t = s))

/-- 44 R1018 to R1021, 60 R1211, R1212, R1220, R1223: the software interrupts enter their vector with IP_next stacked; INTO
with OF = 0 does nothing; IRET pops IP, CS and FLAGS. -/
def Obligations.InterruptForms : Prop :=
  ∀ s : State,
    (∀ i, ∃ t, exec (.intIb i) s = .next t ∧ Enters i s.cpu.ip s.cpu.flags s t) ∧
    (∃ t, exec .int3 s = .next t ∧ Enters 3 s.cpu.ip s.cpu.flags s t) ∧
    (∃ t, exec .into s = .next t ∧ (s.cpu.flags.ovf = true → Enters 4 s.cpu.ip s.cpu.flags s t) ∧
      (s.cpu.flags.ovf = false → t = s)) ∧
    (∃ o sel f t, TopWord s o ∧ ReadsWord s.bus (s.seg .ss) (s.reg16 .sp + 2) sel ∧
      ReadsWord s.bus (s.seg .ss) (s.reg16 .sp + 4) f ∧ exec .iret s = .next t ∧
      Transfer s t ((((s.cpu.put16 .sp (s.reg16 .sp + 6)).putFlags (flagsOfWord f)).putSeg .cs sel).putIp o) s.bus [])

/-- 60 R1240, R1220, 44 R1021: an IRET as the handler's first instruction undoes the entry: every register, segment, flag and
IP is as before INT n. The six stack bytes must be writable memory. -/
def Obligations.InterruptRoundTrip : Prop :=
  ∀ (n : Byte) (s : State), Memory.wf s.bus.mem = true →
    (∀ a ∈ wordCells (s.seg .ss) (s.reg16 .sp - 2) ++ wordCells (s.seg .ss) (s.reg16 .sp - 4) ++
      wordCells (s.seg .ss) (s.reg16 .sp - 6), s.bus.writable a = true) →
    ∃ t u, exec (.intIb n) s = .next t ∧ exec .iret t = .next u ∧ u.cpu.regs = s.cpu.regs ∧ u.cpu.segs = s.cpu.segs ∧
      u.cpu.flags = s.cpu.flags ∧ u.cpu.ip = s.cpu.ip ∧ u.biu.queue = [] ∧ u.biu.pfp = s.cpu.ip

/-! Processor control. -/

/-- 45 R1100 to R1105, R1107: each flag instruction, by its encoding, writes its flag and changes nothing else; the inhibit of
STI is the end of the instruction's (`InstructionFrame`). -/
def Obligations.FlagControl : Prop :=
  encode .clc = [0xF8] ∧ encode .stc = [0xF9] ∧ encode .cmc = [0xF5] ∧ encode .cld = [0xFC] ∧ encode .std = [0xFD] ∧
  encode .cli = [0xFA] ∧ encode .sti = [0xFB] ∧
  ∀ s : State,
    let f := s.cpu.flags
    (∃ t, exec .clc s = .next t ∧ Effect s t (s.cpu.putFlags { f with cf := false }) s.bus []) ∧
    (∃ t, exec .stc s = .next t ∧ Effect s t (s.cpu.putFlags { f with cf := true }) s.bus []) ∧
    (∃ t, exec .cmc s = .next t ∧ Effect s t (s.cpu.putFlags { f with cf := !f.cf }) s.bus []) ∧
    (∃ t, exec .cld s = .next t ∧ Effect s t (s.cpu.putFlags { f with df := false }) s.bus []) ∧
    (∃ t, exec .std s = .next t ∧ Effect s t (s.cpu.putFlags { f with df := true }) s.bus []) ∧
    (∃ t, exec .cli s = .next t ∧ Effect s t (s.cpu.putFlags { f with ifl := false }) s.bus []) ∧
    (∃ t, exec .sti s = .next t ∧ Effect s t (s.cpu.putFlags { f with ifl := true }) s.bus [])

/-- 45 R1106, R1108, R1109, R1113: NOP changes nothing; HLT halts with fetching suspended and the bus passive, a code fetch in
progress ending first (21 R329); WAIT is done at once with TEST asserted and goes back to its own offset otherwise (log 14: with
the queue flushed); ESC reads a memory operand as a word, two recorded byte reads, and discards it. -/
def Obligations.HaltWaitEscape : Prop :=
  ∀ s : State,
    exec .nop s = .next s ∧
    (∃ t, exec .hlt s = .next t ∧ t.cpu = { s.cpu with halted := true } ∧ t.bus = s.bus ∧ t.dev = s.dev ∧
      t.biu.fetchSuspended = true ∧ t.biu.fetching = none ∧
      (∃ l, t.biu.queue = s.biu.queue ++ l ∧ l.map QueueByte.addr = s.biu.fetching.toList) ∧
      t.biu.pfp = s.biu.pfp + BitVec.ofNat 16 s.biu.fetching.toList.length ∧ t.biu.cycle.busState = .passive ∧
      t.biu.cycle.tstate = .ti ∧ Frame s t []) ∧
    (∃ t, exec .wait s = .next t ∧ (s.params.testAsserted = true → t = s) ∧
      (s.params.testAsserted = false → Jumped s.cpu.ipStart s t)) ∧
    (∀ c r, exec (.esc c (.reg r)) s = .next s) ∧
    (∀ c m, ∃ lo hi t, exec (.esc c (.mem m)) s = .next t ∧ OpWord s (.mem m) (mkWord hi lo) ∧ Effect s t s.cpu s.bus [] ∧
      let base := s.seg (effSeg m s)
      Adds [.memRead (accessOf (effSeg m s)) (lin base (effAddr m s + 1)) hi,
        .memRead (accessOf (effSeg m s)) (lin base (effAddr m s)) lo] s t)

/-- 45 R1110 to R1112, 30 R410: a prefix sets its bit of the mask, the override or the REP kind (the last one wins), F1 for a
REP prefix, and `IP_lastpfx`; nothing else changes. -/
def Obligations.PrefixForms : Prop :=
  ∀ s : State,
    let p := s.cpu.pfx
    let m := p.mask
    let seen := fun (q : PrefixState) => s.mapCpu fun c => { c with pfx := q, ipLastPfx := c.ip - 1 }
    exec .prefixEs s = .next (seen { p with mask := { m with es := true }, segOverride := some .es }) ∧
    exec .prefixCs s = .next (seen { p with mask := { m with cs := true }, segOverride := some .cs }) ∧
    exec .prefixSs s = .next (seen { p with mask := { m with ss := true }, segOverride := some .ss }) ∧
    exec .prefixDs s = .next (seen { p with mask := { m with ds := true }, segOverride := some .ds }) ∧
    exec .prefixLock s = .next (seen { p with mask := { m with lock := true } }) ∧
    exec .prefixRepne s = .next ((seen { p with mask := { m with repne := true }, rep := some .repne }).mapCpu fun c =>
      { c with f1 := true }) ∧
    exec .prefixRep s = .next ((seen { p with mask := { m with rep := true }, rep := some .repe }).mapCpu fun c =>
      { c with f1 := true })

/-! Undocumented and refused rows. -/

/-- 30 R455 to R457: the forms of R456 are refused in every mode, and the undocumented rows under `UNDOC_MODE = refuse`, at
the address of the instruction and with its opcode byte. -/
def Obligations.RefusedForms : Prop :=
  ∀ (i : Instr) (s : State),
    (∀ op, refusedForm i = some op → exec i s = .refused (.unmodelledForm (lin s.cpu.segs.cs s.cpu.ipStart) op)) ∧
    (s.params.undocMode = .refuse → ∀ op, (∃ d, documented i = some (d, op)) ∨ undocumented i = some op →
      exec i s = .refused (.undocumentedOpcode (lin s.cpu.segs.cs s.cpu.ipStart) op))

/-! Steps. -/

/-- 31 R500 to R502, 30 R410, R428: where no entry is due, a step fetches the row that the next bytes of the instruction
stream decode to, executes it, ends the instruction (or, after a prefix, goes on with the next row), and then makes the
scheduler step. An instruction with more prefixes than one step of the model reads goes on in the next step, with no boundary
and no scheduler step between (R411: no length limit; log 13). Whatever the CPU step is, an interrupt entry, a halted slice and
an iteration of a REP run included, the scheduler step follows it (R500). -/
def Obligations.StepRunsDecoded : Prop :=
  (∀ s : State,
    (∀ t, cpuStep s = .next t → t.cpu.decoding = false → step s = .next (schedulerStep t)) ∧
    (∀ t, cpuStep s = .next t → t.cpu.decoding = true → step s = .next t) ∧
    (∀ f, cpuStep s = .fault f → step s = .fault f) ∧ (∀ r, cpuStep s = .refused r → step s = .refused r)) ∧
  (∀ s t : State, s.cpu.decoding = false → s.cpu.halted = true ∨ s.cpu.repRun.isSome = true ∨ entryDue s = true →
    cpuStep s = .next t → t.cpu.decoding = false) ∧
  (∀ s : State, Running s → entryDue s = false → step s = thenSchedule (runInstruction prefixFuel (beginInstruction s))) ∧
  (∀ s : State, Active s → s.cpu.decoding = true → step s = thenSchedule (runInstruction prefixFuel (s.setDecoding false))) ∧
  (∀ s : State, runInstruction 0 s = .next (s.setDecoding true) ∧
    thenSchedule (.next (s.setDecoding true)) = .next (s.setDecoding true)) ∧
  (∀ (n : Nat) (s : State) (i : Instr) (rest : List Byte), QueueBounded s → QueueAligned s → PlainCode s →
    decode (stream s) = .ok (i, rest) →
    ∃ u, Fetched (6 - rest.length) s u ∧ runInstruction (n + 1) s = afterRow n i (exec i u))

/-- 31 R502, R503, 10 R143: an instruction begins by consuming an inhibited boundary, capturing TF and clearing the prefix
state (`IP_lastpfx`, undefined until a prefix is seen, keeps its value: the model's choice, log 37); it ends, unless a REP run goes
on, with the owed trap, the inhibit of STI, MOV S,E and POP S alone, and no prefix. -/
def Obligations.InstructionFrame : Prop :=
  (∀ s : State, beginInstruction s = s.mapCpu fun c =>
    { c with inhibit := false, trapPending := c.trapPending && !c.inhibit, tempTF := c.flags.tf, pfx := PrefixState.none
             f1 := false, ipStart := c.ip }) ∧
  (∀ (b : Bool) (s : State), s.cpu.repRun = none → finishInstruction b s = s.mapCpu fun c =>
    { c with trapPending := c.tempTF, inhibit := b, pfx := PrefixState.none, f1 := false }) ∧
  (∀ (b : Bool) (s : State), s.cpu.repRun ≠ none → finishInstruction b s = s) ∧
  (∀ i : Instr, setsInhibit i = true ↔ i = .sti ∨ i = .popEs ∨ i = .popSs ∨ i = .popDs ∨
    ∃ e, i = .movEsEw e ∨ i = .movSsEw e ∨ i = .movDsEw e ∨ i = .movEsEwAlias e ∨ i = .movSsEwAlias e ∨ i = .movDsEwAlias e)

/-- 60 R1230, R1231, R1233, R1213: at a boundary where an entry is due, NMI is entered before INTR and INTR before the owed
trap; INTR takes the PIC's vector; with nothing due, or the inhibit set, an instruction runs. An acknowledge that 61 R1341
refuses stops the step with that refusal before anything has changed (the model's reading, log 27). -/
def Obligations.BoundaryEntries : Prop :=
  ∀ s : State, Running s →
    (entryDue s = true ↔ s.cpu.inhibit = false ∧
      (s.cpu.nmiLatch = true ∨ (s.cpu.flags.ifl = true ∧ s.dev.pic.int = true) ∨ s.cpu.trapPending = true)) ∧
    (entryDue s = false → cpuStep s = instructionStep s) ∧
    (entryDue s = true →
      (s.cpu.nmiLatch = true → ∃ t, cpuStep s = .next t ∧
        Enters 2 s.cpu.ip s.cpu.flags (s.mapCpu fun c => { c with nmiLatch := false }) t) ∧
      (s.cpu.nmiLatch = false → s.cpu.flags.ifl = true ∧ s.dev.pic.int = true →
        (∀ v p, s.dev.pic.acknowledge = some (v, p) → ∃ t, cpuStep s = .next t ∧
          Enters v s.cpu.ip s.cpu.flags (s.mapPic fun _ => p) t) ∧
        (s.dev.pic.acknowledge = none → cpuStep s = .refused .acknowledgeForm)) ∧
      (s.cpu.nmiLatch = false → ¬ (s.cpu.flags.ifl = true ∧ s.dev.pic.int = true) → ∃ t, cpuStep s = .next t ∧
        Enters 1 s.cpu.ip s.cpu.flags (s.mapCpu fun c => { c with trapPending := false }) t))

/-- 31 R531, 60 R1234: a halted CPU changes nothing until an NMI is latched or an enabled INTR is there; the NMI then wakes it
into vector 2 with the offset after HLT stacked, and INTR into the PIC's vector; an acknowledge that 61 R1341 refuses stops the
step (the model's reading, log 27). -/
def Obligations.HaltedSlices : Prop :=
  ∀ s : State, s.marks.fault = none → s.marks.refusal = none → s.cpu.halted = true →
    (s.cpu.nmiLatch = false → ¬ (s.cpu.flags.ifl = true ∧ s.dev.pic.int = true) → cpuStep s = .next s) ∧
    (s.cpu.nmiLatch = true → ∃ t, cpuStep s = .next t ∧
      Enters 2 s.cpu.ip s.cpu.flags (s.mapCpu fun c => { c with halted := false, nmiLatch := false }) t) ∧
    (s.cpu.nmiLatch = false → s.cpu.flags.ifl = true → s.dev.pic.int = true →
      (∀ v p, s.dev.pic.acknowledge = some (v, p) → ∃ t, cpuStep s = .next t ∧
        Enters v s.cpu.ip s.cpu.flags ((s.mapCpu fun c => { c with halted := false }).mapPic fun _ => p) t) ∧
      (s.dev.pic.acknowledge = none → cpuStep s = .refused .acknowledgeForm))

/-- 43 R911, R912, 60 R1230: a step of a REP run performs one more iteration when nothing is pending. A latched NMI, an enabled
INTR or, under `REP_TF_PER_ITERATION`, a captured TF instead rewinds IP to the prefix (the last one, or the first, by
`REP_RESUME`), ends the run, clears prefixes and F1, and the highest of them is entered there; an acknowledge that 61 R1341
refuses stops the step (the model's reading, log 27). -/
def Obligations.RepSteps : Prop :=
  ∀ (s : State) (r : RepRun), s.marks.fault = none → s.marks.refusal = none → s.cpu.halted = false → s.cpu.repRun = some r →
    let intr := s.cpu.flags.ifl = true ∧ s.dev.pic.int = true
    let trap := s.params.repTfPerIteration = true ∧ s.cpu.tempTF = true
    let ip := match s.params.repResume with | .lastPrefix => r.ipLastPfx | .firstPrefix => r.ipStart
    let rewound := fun (c : Cpu) =>
      { c with ip := ip, repRun := none, pfx := PrefixState.none, f1 := false
               trapPending := c.trapPending || (s.params.repTfPerIteration && c.tempTF) }
    (s.cpu.nmiLatch = false → ¬ intr → ¬ trap →
      ∃ t, RepIteration r s t ∧ cpuStep s = .next (finishInstruction false t)) ∧
    (s.cpu.nmiLatch = true → ∃ t, cpuStep s = .next t ∧
      Enters 2 ip s.cpu.flags (s.mapCpu fun c => { rewound c with nmiLatch := false }) t) ∧
    (s.cpu.nmiLatch = false → intr →
      (∀ v p, s.dev.pic.acknowledge = some (v, p) → ∃ t, cpuStep s = .next t ∧
        Enters v ip s.cpu.flags ((s.mapCpu rewound).mapPic fun _ => p) t) ∧
      (s.dev.pic.acknowledge = none → cpuStep s = .refused .acknowledgeForm)) ∧
    (s.cpu.nmiLatch = false → ¬ intr → trap → ∃ t, cpuStep s = .next t ∧
      Enters 1 ip s.cpu.flags (s.mapCpu fun c => { rewound c with trapPending := false }) t)

/-! The history and the scheduler. -/

/-- 20 R241, R243, 21 R331, 60 R1233: no step takes an event out of the history. A code fetch is recorded, and every byte that
the EU reads or writes in memory or at a port, with address or port and value; and the accesses of words in memory, of
read-modify-write operands, of the stack, of a string element, of a far pointer, of an interrupt's entry and return, of ports
and of the acknowledge stand there in the order performed. Of the access type of a vector read, which is the model's choice
(log 15), nothing is said. -/
def Obligations.EventHistory : Prop :=
  (∀ s t : State, step s = .next t → s.history <:+ t.history) ∧
  (∀ s : State, s.biu.cycle.tstate = .ti ∨ s.biu.cycle.tstate = .t4 →
    (startFetch s).history = s.history ∧
    ∃ v, (startFetch s).settle.history = .codeFetch (lin s.cpu.segs.cs s.biu.pfp) v :: s.history ∧
      (startFetch s).settle.biu.queue = s.biu.queue ++ [{ byte := v, addr := lin s.cpu.segs.cs s.biu.pfp }]) ∧
  (∀ (s : State) (access : AccessType) (base off p : Word) (v : Byte),
    Adds [.memRead access (lin base off) (readByteAt access base off s).1] s (readByteAt access base off s).2 ∧
    Adds [.memWrite access (lin base off) v] s (writeByteAt access base off v s) ∧
    Adds [.ioRead p (ioReadByte p s).1] s (ioReadByte p s).2 ∧
    Adds [.ioWrite p v] s (ioWriteByte p v s)) ∧
  (∀ (s : State) (m : Mem) (g : Reg16),
    let access := accessOf (effSeg m s)
    let base := s.seg (effSeg m s)
    let a := lin base (effAddr m s)
    let b := lin base (effAddr m s + 1)
    (∃ lo hi t, exec (.movGvEv g (.mem m)) s = .next t ∧ t.reg16 g = mkWord hi lo ∧
      Adds [.memRead access b hi, .memRead access a lo] s t) ∧
    (∃ t, exec (.movEvGv (.mem m) g) s = .next t ∧
      Adds [.memWrite access b (hiByte (s.reg16 g)), .memWrite access a (loByte (s.reg16 g))] s t) ∧
    (∃ lo hi t, exec (.addEvGv (.mem m) g) s = .next t ∧
      let r := mkWord hi lo + s.reg16 g
      Adds [.memWrite access b (hiByte r), .memWrite access a (loByte r), .memRead access b hi, .memRead access a lo] s t) ∧
    (∃ o o' sel sel' t, exec (.ldsGvMp g m) s = .next t ∧ t.reg16 g = mkWord o' o ∧ t.seg .ds = mkWord sel' sel ∧
      Adds [.memRead access (lin base (effAddr m s + 3)) sel', .memRead access (lin base (effAddr m s + 2)) sel,
        .memRead access b o', .memRead access a o] s t)) ∧
  (∀ (s : State) (r : Reg16),
    let sp := s.reg16 .sp
    let slot := fun (off : Word) => lin (s.seg .ss) off
    let v := if r = .sp then sp - 2 else s.reg16 r
    (∃ t, exec (.pushR16 r) s = .next t ∧
      Adds [.memWrite .stack (slot (sp - 1)) (hiByte v), .memWrite .stack (slot (sp - 2)) (loByte v)] s t) ∧
    (∃ lo hi t, exec (.popR16 r) s = .next t ∧ t.reg16 r = mkWord hi lo ∧
      Adds [.memRead .stack (slot (sp + 1)) hi, .memRead .stack (slot sp) lo] s t)) ∧
  (∀ s : State, s.cpu.pfx.rep = none →
    let src := s.cpu.pfx.segOverride.getD .ds
    let si := s.reg16 .si
    let di := s.reg16 .di
    ∃ lo hi t, exec .movsw s = .next t ∧
      Adds [.memWrite .altData (lin (s.seg .es) (di + 1)) hi, .memWrite .altData (lin (s.seg .es) di) lo,
        .memRead (accessOf src) (lin (s.seg src) (si + 1)) hi, .memRead (accessOf src) (lin (s.seg src) si) lo] s t) ∧
  (∀ (s : State) (n : Byte),
    let sp := s.reg16 .sp
    let slot := fun (off : Word) => lin (s.seg .ss) off
    let f := s.cpu.flags.image
    let cs := s.seg .cs
    let ip := s.cpu.ip
    let vec : Word := 4 * n.setWidth 16
    (∃ access o o' sel sel' t, exec (.intIb n) s = .next t ∧ t.cpu.ip = mkWord o' o ∧ t.seg .cs = mkWord sel' sel ∧
      Adds [.memRead access (lin 0 (vec + 3)) sel', .memRead access (lin 0 (vec + 2)) sel,
        .memRead access (lin 0 (vec + 1)) o', .memRead access (lin 0 vec) o,
        .memWrite .stack (slot (sp - 5)) (hiByte ip), .memWrite .stack (slot (sp - 6)) (loByte ip),
        .memWrite .stack (slot (sp - 3)) (hiByte cs), .memWrite .stack (slot (sp - 4)) (loByte cs),
        .memWrite .stack (slot (sp - 1)) (hiByte f), .memWrite .stack (slot (sp - 2)) (loByte f)] s t) ∧
    (∃ o o' sel sel' w w' t, exec .iret s = .next t ∧ t.cpu.ip = mkWord o' o ∧ t.seg .cs = mkWord sel' sel ∧
      t.cpu.flags = flagsOfWord (mkWord w' w) ∧
      Adds [.memRead .stack (slot (sp + 5)) w', .memRead .stack (slot (sp + 4)) w, .memRead .stack (slot (sp + 3)) sel',
        .memRead .stack (slot (sp + 2)) sel, .memRead .stack (slot (sp + 1)) o', .memRead .stack (slot sp) o] s t)) ∧
  (∀ s : State,
    let ax := s.reg16 .ax
    (∀ (i : Instr) (p : Word), (i = .inAxDx ∧ p = s.reg16 .dx) ∨ (∃ b : Byte, i = .inAxIb b ∧ p = b.setWidth 16) →
      ∃ lo hi t, exec i s = .next t ∧ t.reg16 .ax = mkWord hi lo ∧ Adds [.ioRead (p + 1) hi, .ioRead p lo] s t) ∧
    (∀ (i : Instr) (p : Word), (i = .outDxAx ∧ p = s.reg16 .dx) ∨ (∃ b : Byte, i = .outIbAx b ∧ p = b.setWidth 16) →
      ∃ t, exec i s = .next t ∧ Adds [.ioWrite (p + 1) (hiByte ax), .ioWrite p (loByte ax)] s t)) ∧
  (∀ (s t : State) (v : Byte), acknowledge s = some (v, t) → Adds [.intaVector v, .intaFirst] s t)

/-- 61 R1302, R1310 to R1312, R1316, R1320, R1321, R1366, 60 R1214, R1232: the scheduler step turns the CPU step's cycles into
system ticks and PIT clocks, with the accumulators carried; GATE2 follows the PPI latch; each counter whose count is legal is
clocked that often; the PIC first senses its lines, and then, clock by clock, a change of OUT0 is set on IR0 and a rise of OUT1
requests a refresh; the DMA step follows; the hint says that counter 0 is near zero; the NMI input is sampled, a rising edge
latching; nothing else of the CPU changes. That the cycles are the environment's next figure, and at least 1, is the model's
choice (log 8); the lines sensed are the environment's inputs (log 9). -/
def Obligations.SchedulerStep : Prop :=
  ∀ s : State,
    let q := s.params
    let d := s.dev.sched
    let p := s.dev.pit
    let t := schedulerStep s
    let nmi := s.env.nmiSource && s.dev.nmiMask.getLsbD 7
    t.cpu = { s.cpu with nmiLatch := s.cpu.nmiLatch || (nmi && !s.cpu.nmiPrev), nmiPrev := nmi } ∧
    t.dev.ppiB = s.dev.ppiB ∧ t.dev.nmiMask = s.dev.nmiMask ∧
    t.dev.sched.imminent = (t.dev.pit.c0.counting && decide (t.dev.pit.c0.ce.toNat ≤ q.imminentThreshold)) ∧
    ∃ n, 1 ≤ n ∧ (∀ m l, s.env.cycles = m :: l → n = max 1 m ∧ t.env.cycles = l) ∧
      let ticks := d.extra + match q.clockFactor with
        | .divisor k => n * k
        | .multiplier m => (d.sysFrac + n) / m
      let clocks := (d.pitRem + ticks) / 12
      t.dev.sched.pitRem = (d.pitRem + ticks) % 12 ∧ t.dev.sched.extra = 0 ∧
      t.dev.sched.usFrac = (d.usFrac + ticks * 1000000) % q.systemCrystalHz ∧
      t.dev.sched.sysFrac = (match q.clockFactor with
        | .divisor _ => d.sysFrac
        | .multiplier m => (d.sysFrac + n) % m) ∧
      (p.c0.free = false → t.dev.pit.c0 = pitClocksOf clocks p.c0) ∧
      (p.c1.free = false → t.dev.pit.c1 = pitClocksOf clocks p.c1) ∧
      (p.c2.free = false → t.dev.pit.c2 = pitClocksOf clocks (p.c2.setGate (s.dev.ppiB.getLsbD 0))) ∧
      (clocks = 0 → t.dev.pic = s.dev.pic.setLines ((s.env.ir &&& 0xFE) ||| (s.dev.pic.ir &&& 0x01))) ∧
      ∃ u : Nat → Devices,
        (u 0).pit = { p with c2 := p.c2.setGate (s.dev.ppiB.getLsbD 0) } ∧
        (u 0).pic = s.dev.pic.setLines ((s.env.ir &&& 0xFE) ||| (s.dev.pic.ir &&& 0x01)) ∧
        (u 0).refreshReq = s.dev.refreshReq ∧ (u 0).dma = s.dev.dma ∧
        (∀ k < clocks, PitTicked (u k) (u (k + 1))) ∧
        t.dev.pit = (u clocks).pit ∧ t.dev.pic = (u clocks).pic ∧
        ∃ v : State, v.dev = u clocks ∧ v.bus = s.bus ∧ v.history = s.history ∧ v.params = q ∧ v.marks = s.marks ∧
          v.env.dreq = s.env.dreq ∧ v.env.dreqSamples = s.env.dreqSamples ∧ v.env.answers = s.env.answers ∧
          t.dev.dma = (dmaStep v).dev.dma ∧ t.dev.refreshReq = (dmaStep v).dev.refreshReq ∧ t.bus = (dmaStep v).bus ∧
          t.history = (dmaStep v).history ∧ t.marks = (dmaStep v).marks

/-! Encoding. -/

/-- The rows executed one after the other. -/
def execRows : List Instr → State → Option State
  | [], s => some s
  | i :: is, s =>
    match exec i s with
    | .next t => execRows is t
    | .fault _ => none
    | .refused _ => none

/-- 30 R400 to R440: decoding the bytes of a well-formed instruction, whatever follows them, gives the instruction and what
follows; every operand at every value its encoding admits. R404, R410: with any run of prefixes before it the instruction record
has the instruction, the prefix state that executing the prefixes leaves, the start offset as its address, as its size every
byte consumed, and its flags (what the flags uses-memory and is-relative-jump take in is the model's choice, log 47); under
`UNDOC_MODE = refuse` there is none where F1 is among the prefixes. -/
def Obligations.DecodeEncode : Prop :=
  (∀ (i : Instr) (rest : List Byte), i.wf = true → decode (encode i ++ rest) = .ok (i, rest)) ∧
  (∀ (s : State) (ps : List Instr) (i : Instr) (rest : List Byte), s.cpu.pfx = PrefixState.none →
    (s.params.undocMode = .refuse → Instr.prefixLockAlias ∉ ps) → (∀ q ∈ ps, isPrefix q = true) → isPrefix i = false →
    i.wf = true → ∃ (r : InstrRecord) (t : State) (op : Byte) (tail : List Byte), encode i = op :: tail ∧
      execRows ps s = some t ∧
      decodeRecord s.params.undocMode s.cpu.ip (ps.flatMap encode ++ encode i ++ rest) = .ok (r, rest) ∧
      r.opcode = op ∧ r.instr = i ∧ r.prefixes = t.cpu.pfx ∧ r.addr = s.cpu.ip ∧ r.size = ps.length + (encode i).length ∧
      r.hasModrm = hasModrm op ∧
      (r.hasModrm = true → ∃ b bs, tail = b :: bs ∧ (r.usesMemory = true ↔ modOf b ≠ 3)) ∧
      (r.hasModrm = false → (r.usesMemory = true ↔ 0xA0 ≤ op ∧ op ≤ 0xA3)) ∧
      (r.relativeJump = true ↔ (0x60 ≤ op ∧ op ≤ 0x7F) ∨ (0xE0 ≤ op ∧ op ≤ 0xE3) ∨ op = 0xE8 ∨ op = 0xE9 ∨ op = 0xEB)) ∧
  (∀ (addr : Word) (ps : List Instr) (rest : List Byte), (∀ q ∈ ps, isPrefix q = true) → Instr.prefixLockAlias ∈ ps →
    decodeRecord .refuse addr (ps.flatMap encode ++ rest) = .error .undocumentedPrefix)

/-- 30 R430 to R439: words written out from the encoding tables decode to their instructions, one or more of every family. -/
def Obligations.DecodeWords : Prop :=
  decode [0x83, 0xC0, 0xFF] = .ok (.addEvIbSx (.reg .ax) 0xFF, []) ∧
  decode [0xF7, 0xF9] = .ok (.idivEv (.reg .cx), []) ∧
  decode [0x24, 0x0F] = .ok (.andAlIb 0x0F, []) ∧
  decode [0xD2, 0xE0] = .ok (.shlEbCl (.reg .al), []) ∧
  decode [0x8B, 0x46, 0xFE] = .ok (.movGvEv .ax (.mem (.baseD8 .bp 0xFE)), []) ∧
  decode [0xA3, 0x00, 0x01] = .ok (.movMoffsAx 0x0100, []) ∧
  decode [0xF3] = .ok (.prefixRep, []) ∧ decode [0xA5] = .ok (.movsw, []) ∧
  decode [0xEA, 0x5B, 0xE0, 0x00, 0xF0] = .ok (.jmpPtr 0xE05B 0xF000, []) ∧
  decode [0xFF, 0x1E, 0x00, 0x02] = .ok (.callMp (.direct 0x0200), []) ∧
  decode [0xCD, 0x21] = .ok (.intIb 0x21, []) ∧
  decode [0xD9, 0x06, 0x00, 0x02] = .ok (.esc 0x08 (.mem (.direct 0x0200)), []) ∧
  decode [0xFB] = .ok (.sti, []) ∧
  decode [0x0F] = .ok (.popCsRefused, [])

/-! Invariants. -/

/-- 31 R551, 21 R320, R322: the invariant holds after reset. -/
def Obligations.InvAtReset : Prop := Inv State.reset

/-- 31 R551, 21 R320, R322: from every state that meets it, a step leads to a state that meets it: the queue holds at most
four bytes, they are those of CS:IP on, the prefetch pointer is behind them, and memory keeps its canonical form. -/
def Obligations.InvEveryStep : Prop := ∀ s t : State, Inv s → step s = .next t → Inv t

/-- 20 R213, 31 R551, 20 R200: no step, whatever it executes and whatever the devices do, changes a byte of ROM, of a
peripheral's granule or above the conventional-memory cap, nor the routing, nor the parameters, nor a fault mark. -/
def Obligations.FixedBytesKept : Prop :=
  ∀ s t : State, step s = .next t →
    (∀ a, s.bus.isDevice a = true ∨ s.bus.isRomGranule a = true ∨ s.bus.romFlag a = true ∨ s.bus.convMemCap ≤ a.toNat →
      t.bus.byte a = s.bus.byte a) ∧
    t.bus.romRegions = s.bus.romRegions ∧ t.bus.mmioMap = s.bus.mmioMap ∧ t.bus.convMemCap = s.bus.convMemCap ∧
    t.params = s.params ∧ t.marks.fault = s.marks.fault

/-- 20 R200, R212, R220: the bytes a write changes. A byte outside every device's and ROM granule, with no ROM flag and below the
conventional-memory cap takes the byte stored, and every other byte keeps its own; a write of any other byte changes nothing
(in a granule routed to memory the flag and the cap hold too: the model's reading, log 18). A word is its low byte, then its
high byte at the next offset of the segment. A byte that MOV stores so reads back. -/
def Obligations.StoredBytes : Prop :=
  ∀ b : Bus, Memory.wf b.mem = true →
    (∀ a v, b.isDevice a = false → b.isRomGranule a = false → b.romFlag a = false → a.toNat < b.convMemCap →
      b.writable a = true ∧ ∀ x, (b.store a v).byte x = if x = a then v else b.byte x) ∧
    (∀ a v, b.isDevice a = true ∨ b.isRomGranule a = true ∨ b.romFlag a = true ∨ b.convMemCap ≤ a.toNat →
      b.writable a = false ∧ b.store a v = b) ∧
    (∀ base off w, (∀ a ∈ wordCells base off, b.writable a = true) → ∀ x, (b.storeWord base off w).byte x =
      if x = lin base off then loByte w else if x = lin base (off + 1) then hiByte w else b.byte x) ∧
    (∀ (s : State) (m : Mem) (g : Reg8), s.bus = b → b.writable (lin (s.seg (effSeg m s)) (effAddr m s)) = true →
      ∃ t, exec (.movEbGb (.mem m) g) s = .next t ∧ t.bus.byte (lin (s.seg (effSeg m s)) (effAddr m s)) = s.reg8 g)

/-! The bus interface unit. -/

/-- The bus is free: a cycle may begin (21 R308). -/
def BusFree (s : State) : Prop := s.biu.cycle.tstate = .ti ∨ s.biu.cycle.tstate = .t4

/-- 21 R300 to R306, R308, R309, R324: the order of the T-states, a clock at a time, with the pending request begun where one
may begin, the wait states counted down, and a read's byte captured as its data phase ends (that a write's byte shows from T1 on,
and in a read the byte of the cycle before until the capture, is the model's choice, log 33); the command strobes by T-state and
the status codes; a memory read of the EU on a free bus takes four clocks and its wait states, none for plain memory, and ends
in T4; a write releases the EU in its T1, memory unchanged, and it too takes four clocks and its wait states (that a flush may
fall in the clock that leads to its T2, and that of the EU's own clocks after T1 the first two lead to T3, where the byte is
stored, and the others follow, is the model's choice, log 24); a clock of the EU's own on a free bus launches a code fetch
exactly where the queue has room and fetching is not suspended, that in which it takes a byte from the queue too (that the byte
taken leaves its room in that clock already is the model's choice, log 24). -/
def Obligations.BusCycles : Prop :=
  (∀ c : BusCycle, let d := tick c
    d.clock = c.clock + 1 ∧ d.queueOp = .idle ∧ d.queueByte = none ∧
    (c.tstate = .ti ∨ c.tstate = .t4 →
      (c.pending = none → d.tstate = .ti ∧ d.busState = .passive) ∧
      (∀ r, c.pending = some r → d.tstate = .t1 ∧ d.busState = r.kind ∧ d.access = r.access ∧ d.addr = r.addr ∧
        d.pending = none ∧ (∀ v, r.data = some v → d.data = v))) ∧
    (c.tstate = .t1 → d.tstate = .t2) ∧ (c.tstate = .t2 → d.tstate = .t3) ∧
    (c.tstate = .t3 ∨ c.tstate = .tw →
      (c.waits = 0 → d.tstate = .t4 ∧ d.data = c.incoming.getD c.data) ∧
      (∀ n, c.waits = n + 1 → d.tstate = .tw ∧ d.waits = n ∧ d.data = c.data)) ∧
    (c.tstate ≠ .ti → c.tstate ≠ .t4 → d.busState = c.busState ∧ d.access = c.access ∧ d.addr = c.addr)) ∧
  (∀ c : BusCycle,
    let late := c.tstate = .t3 ∨ c.tstate = .tw
    let early := c.tstate = .t2 ∨ late
    ((strobes c).ale = true ↔ c.tstate = .t1 ∧ c.busState ≠ .passive) ∧
    ((strobes c).mrdc = true ↔ early ∧ (c.busState = .codeFetch ∨ c.busState = .memRead)) ∧
    ((strobes c).amwc = true ↔ early ∧ c.busState = .memWrite) ∧ ((strobes c).mwtc = true ↔ late ∧ c.busState = .memWrite) ∧
    ((strobes c).iorc = true ↔ early ∧ c.busState = .ioRead) ∧ ((strobes c).inta = true ↔ early ∧ c.busState = .inta) ∧
    ((strobes c).aiowc = true ↔ early ∧ c.busState = .ioWrite) ∧
    ((strobes c).iowc = true ↔ late ∧ c.busState = .ioWrite)) ∧
  [BusState.inta, .ioRead, .ioWrite, .halt, .codeFetch, .memRead, .memWrite, .passive].map BusState.status =
    [0, 1, 2, 3, 4, 5, 6, 7] ∧
  [Sreg.es, .ss, .cs, .ds].map (fun r => (accessOf r).status) = [0, 1, 2, 3] ∧
  [QueueOp.idle, .first, .flush, .subsequent].map QueueOp.status = [0, 1, 2, 3] ∧
  (∀ (s : State) (access : AccessType) (a : LinAddr), BusFree s → ∃ w,
    let r := memRead access a s
    let c := r.2.biu.cycle
    (s.bus.isDevice a = false → w = 0) ∧ c.clock = s.biu.cycle.clock + 4 + w ∧ c.tstate = .t4 ∧ c.busState = .memRead ∧
      c.access = access ∧ c.addr = a ∧ c.data = r.1) ∧
  (∀ (s : State) (access : AccessType) (a : LinAddr) (v : Byte), BusFree s →
    let t := beginWrite access a v s
    let b := t.biu.cycle
    let f := flushQueue t
    let n := (takeEuClocks t).1
    let u := dataWrite access a v .idle ((takeEuClocks t).2.clock .idle none)
    let c := u.biu.cycle
    (b.tstate = .t1 ∧ b.busState = .memWrite ∧ b.access = access ∧ b.addr = a ∧ b.data = v ∧
      b.clock = s.biu.cycle.clock + 1 ∧ t.bus = s.bus) ∧
    (f.biu.cycle.tstate = .t2 ∧ f.biu.cycle.busState = .memWrite ∧ f.biu.cycle.queueOp = .flush ∧ f.biu.queue = []) ∧
    memWrite access a v s = euClocks (n - 2) u ∧ u.bus = s.bus.store a v ∧
    (s.bus.isDevice a = false → c.waits = 0) ∧ c.clock = s.biu.cycle.clock + 3 ∧ c.tstate = .t3 ∧ c.busState = .memWrite ∧
      c.access = access ∧ c.addr = a ∧ c.data = v ∧ u.settle.biu.cycle.tstate = .t4 ∧
      u.settle.biu.cycle.clock = s.biu.cycle.clock + 4 + c.waits) ∧
  (∀ (s : State) (op : QueueOp) (v : Option Byte), let b := s.biu
    let room := b.queue.length < 4 ∧ b.fetchSuspended = false
    let d := (euClock s op v).biu
    let c := d.cycle
    BusFree s → b.cycle.pending = none → b.fetching = none → c.queueOp = op ∧ c.queueByte = v ∧ d.queue = b.queue ∧
    (room → c.tstate = .t1 ∧ c.busState = .codeFetch ∧ c.access = .code ∧ c.addr = lin s.cpu.segs.cs b.pfp) ∧
    (¬ room → c.tstate = .ti ∧ c.busState = .passive)) ∧
  (∀ (s : State) (op : QueueOp) (q : QueueByte) (qs : List QueueByte), let b := s.biu
    let t := takeByte op s
    let c := t.biu.cycle
    BusFree s → b.cycle.pending = none → b.fetching = none → b.fetchSuspended = false → b.queue = q :: qs → qs.length < 4 →
    t.biu.queue = qs ∧ c.queueOp = op ∧ c.queueByte = some q.byte ∧ c.tstate = .t1 ∧ c.busState = .codeFetch ∧
      c.access = .code ∧ c.addr = lin s.cpu.segs.cs b.pfp)

/-! Devices. -/

/-- 61 R1340, R1341: whichever level is lowest, level r wins exactly when it is requested and unmasked, in fully nested mode with
no level from the highest down to r in service, in special mask mode with r itself not in service, and no level before r wins;
the acknowledge of an 8086-mode PIC with no slave on r then gives base + r, puts r in service or, with automatic EOI, leaves it
out of service and, rotating, makes it the lowest; with no winner the vector is that of level 7 and nothing changes. -/
def Obligations.PicPriority : Prop :=
  ∀ (p : Pic) (r : BitVec 3),
    let rank := fun q : BitVec 3 => q - p.lowest - 1
    let on := fun (v : Byte) (q : BitVec 3) => v.getLsbD q.toNat
    (p.smm = false → (p.winner = some r ↔ on p.irr r = true ∧ on p.imr r = false ∧
      (∀ q, rank q ≤ rank r → on p.isr q = false) ∧
      (∀ q, rank q < rank r → on p.irr q = false ∨ on p.imr q = true))) ∧
    (p.smm = true → (p.winner = some r ↔ on p.irr r = true ∧ on p.imr r = false ∧ on p.isr r = false ∧
      (∀ q, rank q < rank r → on p.irr q = false ∨ on p.imr q = true ∨ on p.isr q = true))) ∧
    (p.winner = some r → p.upm = true → p.sngl = true ∨ on p.icw3 r = false →
      ∃ q, p.acknowledge = some (p.base + r.setWidth 8, q) ∧ q.imr = p.imr ∧
        (∀ l, l ≠ r → on q.isr l = on p.isr l ∧ on q.irr l = on p.irr l) ∧
        on q.irr r = (on p.irr r && p.ltim) ∧
        (p.aeoi = false → on q.isr r = true ∧ q.lowest = p.lowest) ∧
        (p.aeoi = true → on q.isr r = false ∧ q.lowest = if p.rotAeoi then r else p.lowest)) ∧
    (p.winner = none → p.upm = true → p.acknowledge = some (p.base + 7, p))

/-- 61 R1330 to R1339: the PIC's commands through its ports: ICW1 to ICW4, the mask, the eight forms of OCW2 with the
end-of-interrupt commands, OCW3, the reads and the poll, and the sensing of the lines; a level in service is not requested
again. That a poll is answered with uPM = 0 and on a cascaded level too is the model's choice (log 35). -/
def Obligations.PicCommands : Prop :=
  (∀ (s : State) (v : Byte), (portWrite 0x20 v s).dev = { s.dev with pic := s.dev.pic.write false v } ∧
    (portWrite 0x21 v s).dev = { s.dev with pic := s.dev.pic.write true v }) ∧
  (∀ (p : Pic) (v : Byte), v.getLsbD 4 = true →
    let q := p.write false v
    q.init = .wantIcw2 ∧ q.int = false ∧ q.imr = 0 ∧ q.isr = 0 ∧ q.irr = 0 ∧ q.ir = p.ir ∧ q.edgePrev = p.ir ∧ q.lowest = 7 ∧
    q.smm = false ∧ q.readSel = .irr ∧ q.poll = false ∧ q.rotAeoi = false ∧ q.ltim = v.getLsbD 3 ∧ q.sngl = v.getLsbD 1 ∧
    q.ic4 = v.getLsbD 0 ∧
    (v.getLsbD 0 = false → q.upm = false ∧ q.aeoi = false ∧ q.buf = false ∧ q.ms = false ∧ q.sfnm = false)) ∧
  (∀ (p : Pic) (v : Byte),
    (p.init = .uninit → p.write true v = p) ∧
    (p.init = .wantIcw2 → p.write true v = { p with
      base := v &&& 0xF8, init := if p.sngl then (if p.ic4 then .wantIcw4 else .ready) else .wantIcw3 }) ∧
    (p.init = .wantIcw3 → p.write true v = { p with icw3 := v, init := if p.ic4 then .wantIcw4 else .ready }) ∧
    (p.init = .wantIcw4 → p.write true v = { p with
      upm := v.getLsbD 0, aeoi := v.getLsbD 1, ms := v.getLsbD 2, buf := v.getLsbD 3, sfnm := v.getLsbD 4, init := .ready }) ∧
    (p.init = .ready → p.write true v = { p with imr := v }) ∧
    (v.getLsbD 4 = false → v.getLsbD 3 = true → p.write false v = { p with
      smm := if v.getLsbD 6 then v.getLsbD 5 else p.smm
      readSel := if v.getLsbD 1 then (if v.getLsbD 0 then .isr else .irr) else p.readSel
      poll := v.getLsbD 2 })) ∧
  (∀ (p : Pic) (r : BitVec 3), p.lowest = 7 → p.smm = false → p.isr.getLsbD r.toNat = true →
    (∀ q : BitVec 3, q < r → p.isr.getLsbD q.toNat = false) →
    p.write false 0x20 = { p with isr := cleared p.isr r } ∧
    p.write false 0xA0 = { p with isr := cleared p.isr r, lowest := r }) ∧
  (∀ (p : Pic) (l : BitVec 3), (p.isr = 0 → p.write false 0x20 = p ∧ p.write false 0xA0 = p) ∧
    p.write false (0x60 ||| l.setWidth 8) = { p with isr := cleared p.isr l } ∧
    p.write false (0xE0 ||| l.setWidth 8) = { p with isr := cleared p.isr l, lowest := l } ∧
    p.write false (0xC0 ||| l.setWidth 8) = { p with lowest := l } ∧ p.write false (0x40 ||| l.setWidth 8) = p ∧
    p.write false 0x80 = { p with rotAeoi := true } ∧ p.write false 0x00 = { p with rotAeoi := false } ∧
    (p.isr.getLsbD l.toNat = true → p.winner ≠ some l)) ∧
  (∀ (p : Pic) (ir : Byte) (r : BitVec 3), (p.setLines ir).edgePrev = ir ∧
    (p.setLines ir).irr.getLsbD r.toNat = (ir.getLsbD r.toNat &&
      (p.ltim || p.irr.getLsbD r.toNat || !p.edgePrev.getLsbD r.toNat))) ∧
  (∀ s : State, let p := s.dev.pic
    p.init = .ready →
    (portRead 0x21 s).1.value = p.imr ∧ (portRead 0x21 s).2.dev = s.dev ∧
    (p.poll = false → (portRead 0x20 s).1.value = (match p.readSel with | .irr => p.irr | .isr => p.isr) ∧
      (portRead 0x20 s).2.dev = s.dev) ∧
    (p.poll = true → (portRead 0x20 s).2.dev.pic.poll = false ∧
      (p.winner = none → (portRead 0x20 s).1.value = 0) ∧
      (∀ r, p.winner = some r → (portRead 0x20 s).1.value = 0x80 ||| r.setWidth 8 ∧
        (portRead 0x20 s).2.dev.pic.isr.getLsbD r.toNat = true ∧
        (p.ltim = false → (portRead 0x20 s).2.dev.pic.irr.getLsbD r.toNat = false))))

/-- 61 R1352, R1354, R1355, R1357, R1366: a counter programmed to mode 0, binary, low byte then high byte, with GATE = 1: OUT is
low from the control word on, through both count bytes, and after the load clock it rises N clocks later and stays high, N
being the count, or 65536 for 0. -/
def Obligations.PitModeZero : Prop :=
  ∀ (c : PitCounter) (lo hi sel : Byte), c.gate = true →
    let v := controlWord sel 0
    let d := programmedTo c sel 0 lo hi
    (c.control v).out = false ∧ ((c.control v).writeCount lo).out = false ∧ d.out = false ∧
    ∀ k, (pitClocksOf (k + 1) d).out = decide (countOf lo hi ≤ k) ∧
      (pitClocksOf (k + 1) d).ce = mkWord hi lo - BitVec.ofNat 16 k

/-- 61 R1352, R1354 to R1356, R1358 to R1363, R1366, R1368: the other modes, binary, low byte then high byte, N being the count
or 65536 for 0. Modes 1 and 5 do nothing without a GATE edge; the clock of an edge loads, and N clocks later OUT rises (mode 1)
or is low for one clock (mode 5). With GATE = 1, and N at least 2 for modes 2 and 3, the clock after the count loads; from it on
OUT is low for the last of every N clocks (mode 2), high for the first half of every N, the odd clock included (mode 3), or
low for one clock N clocks later (mode 4). GATE = 0 pauses modes 0 and 2 to 4, and sets OUT in modes 2 and 3; that it does so at
once also where an illegal count makes OUT a draw (R1355, `c.free = true`) is the model's choice (log 41), and that the pause
holds a strobe of mode 4 in progress too, OUT staying low beyond the one clock of R1361, is the model's choice (log 46). -/
def Obligations.PitModes : Prop :=
  (∀ (c : PitCounter) (lo hi sel : Byte),
    let n := countOf lo hi
    let d := fun m => programmedTo c sel m lo hi
    let after := fun m k => pitClocksOf (k + 1) (d m)
    let triggered := fun m k => pitClocksOf (k + 1) { d m with gateRise := true }
    ((d 1).out = true ∧ (c.gateRise = false → ∀ k, pitClocksOf k (d 1) = d 1) ∧
      ∀ k, (triggered 1 k).out = decide (n ≤ k) ∧ (triggered 1 k).ce = mkWord hi lo - BitVec.ofNat 16 k) ∧
    ((d 5).out = true ∧ (c.gateRise = false → ∀ k, pitClocksOf k (d 5) = d 5) ∧
      ∀ k, (triggered 5 k).out = decide (k ≠ n) ∧ (k ≤ n → (triggered 5 k).ce = mkWord hi lo - BitVec.ofNat 16 k)) ∧
    (c.gate = true →
      ((d 4).out = true ∧
        ∀ k, (after 4 k).out = decide (k ≠ n) ∧ (k ≤ n → (after 4 k).ce = mkWord hi lo - BitVec.ofNat 16 k)) ∧
      (mkWord hi lo ≠ 1 → c.gateRise = false →
        ((d 2).out = true ∧ d 6 = d 2 ∧
          ∀ k, (after 2 k).out = decide (k % n ≠ n - 1) ∧ (after 2 k).ce = mkWord hi lo - BitVec.ofNat 16 (k % n)) ∧
        ((d 3).out = true ∧ d 7 = d 3 ∧ ∀ k, (after 3 k).out = decide (k % n < (n + 1) / 2))))) ∧
  (∀ c : PitCounter,
    (c.gate = false → (c.setGate true).gateRise = true ∧ (c.setGate true).out = c.out) ∧
    (c.gate = true → (c.setGate false).gateRise = c.gateRise ∧
      (c.setGate false).out = (c.out || decide (c.mode = .m2 ∨ c.mode = .m3))) ∧
    (c.gate = false → c.gateRise = false → c.loadPending = false → c.mode ≠ .m1 → c.mode ≠ .m5 → c.clock = c))

/-- 61 R1351 to R1354, R1364, R1401 to R1408: the ports of the PIT and of the DMA controller: what a write leaves in the
registers, the counter latch, what a read gives and changes. A counter whose OUT and CE are draws is left out (R1355). -/
def Obligations.DevicePorts : Prop :=
  (∀ (s : State) (i : BitVec 2) (v : Byte), i ≠ 3 →
    let c := s.dev.pit.get i
    let p : Word := 0x40 + i.setWidth 16
    ((c.writeCount v).free = false → (portWrite p v s).dev.pit.get i = c.writeCount v) ∧
    (v.extractLsb' 6 2 = i → (c.control v).free = false → (portWrite 0x43 v s).dev.pit.get i = c.control v) ∧
    (v.extractLsb' 6 2 = (3 : BitVec 2) → (portWrite 0x43 v s).dev = s.dev) ∧
    (c.programmed = true → c.loaded = true → c.free = false →
      (portRead p s).1.value = c.readValue ∧ (portRead p s).2.dev.pit.get i = c.afterRead)) ∧
  (∀ (c : PitCounter) (sel : Byte),
    let src := if c.latched then c.ol else c.ce
    (c.control (sel &&& 0xCF) = if c.latched then c else { c with ol := c.ce, latched := true }) ∧
    (c.rl = .lsb → c.readValue = loByte src ∧ c.afterRead = { c with latched := false }) ∧
    (c.rl = .msb → c.readValue = hiByte src ∧ c.afterRead = { c with latched := false }) ∧
    (c.rl = .both → c.rff = false → c.readValue = loByte src ∧ c.afterRead = { c with rff := true }) ∧
    (c.rl = .both → c.rff = true → c.readValue = hiByte src ∧ c.afterRead = { c with rff := false, latched := false })) ∧
  (∀ (s : State) (c : BitVec 2) (lo hi v : Byte),
    let d := s.dev.dma
    let x := d.get c
    let addr : Word := 2 * c.setWidth 16
    let count : Word := addr + 1
    (d.ff = false →
      (portWrite addr hi (portWrite addr lo s)).dev.dma = d.set c { x with baseAddr := mkWord hi lo, curAddr := mkWord hi lo } ∧
      (portWrite count hi (portWrite count lo s)).dev.dma =
        d.set c { x with baseCount := mkWord hi lo, curCount := mkWord hi lo }) ∧
    (portRead addr s).1.value = (if d.ff then hiByte x.curAddr else loByte x.curAddr) ∧
    (portRead addr s).2.dev.dma = { d with ff := !d.ff } ∧
    (portRead count s).1.value = (if d.ff then hiByte x.curCount else loByte x.curCount) ∧
    (portRead count s).2.dev.dma = { d with ff := !d.ff } ∧
    (portWrite 0x08 v s).dev.dma = { d with command := v } ∧
    (portRead 0x08 s).1.value.getLsbD c.toNat = x.tc ∧
    (portRead 0x08 s).1.value.getLsbD (4 + c.toNat) = (dreqActive s c || x.req) ∧
    (portRead 0x08 s).2.dev.dma.get c = { x with tc := false } ∧
    (v.setWidth 2 = c → (portWrite 0x09 v s).dev.dma = d.set c { x with req := v.getLsbD 2 } ∧
      (portWrite 0x0A v s).dev.dma = d.set c { x with mask := v.getLsbD 2 } ∧
      (portWrite 0x0B v s).dev.dma = d.set c { x with mode := v.extractLsb' 2 6 }) ∧
    (portWrite 0x0C v s).dev.dma = { d with ff := false } ∧
    (portRead 0x0D s).1.value = d.temp ∧ (portRead 0x0D s).2.dev = s.dev ∧
    (portWrite 0x0D v s).dev.dma.get c = { x with tc := false, req := false, mask := true } ∧
    (portWrite 0x0D v s).dev.dma.command = 0 ∧ (portWrite 0x0D v s).dev.dma.temp = 0 ∧
    (portWrite 0x0D v s).dev.dma.ff = false ∧ (portWrite 0x0D v s).dev.dma.rotLast = 3 ∧
    (portWrite 0x0E v s).dev.dma.get c = { x with mask := false } ∧
    (portWrite 0x0F v s).dev.dma.get c = { x with mask := v.getLsbD c.toNat }) ∧
  (∀ (s : State) (v : Byte), let d := s.dev.dma
    (portWrite 0x80 v s).dev.dma = { d with ch0 := { d.ch0 with page := v.setWidth 4 } } ∧
    (portWrite 0x83 v s).dev.dma = { d with ch1 := { d.ch1 with page := v.setWidth 4 } } ∧
    (portWrite 0x81 v s).dev.dma = { d with ch2 := { d.ch2 with page := v.setWidth 4 } } ∧
    (portWrite 0x82 v s).dev.dma = { d with ch3 := { d.ch3 with page := v.setWidth 4 } })

/-- 61 R1410, R1411: a programmed count of N moves N + 1 bytes: the transfers before leave TC and the mask as they are, and
the last one sets TC and either reloads address and count (autoinitialise) or masks the channel. -/
def Obligations.DmaTerminalCount : Prop :=
  ∀ (x : DmaChannel) (k : Nat), k ≤ x.curCount.toNat →
    (dmaAdvances k x).curCount = x.curCount - BitVec.ofNat 16 k ∧
    (dmaAdvances k x).curAddr = (if x.decrement then x.curAddr - BitVec.ofNat 16 k else x.curAddr + BitVec.ofNat 16 k) ∧
    (dmaAdvances k x).tc = x.tc ∧ (dmaAdvances k x).mask = x.mask ∧
    (k = x.curCount.toNat → (dmaAdvances (k + 1) x).tc = true ∧ (dmaAdvances (k + 1) x).req = false ∧
      (x.autoinit = true → (dmaAdvances (k + 1) x).curAddr = x.baseAddr ∧
        (dmaAdvances (k + 1) x).curCount = x.baseCount ∧ (dmaAdvances (k + 1) x).mask = x.mask) ∧
      (x.autoinit = false → (dmaAdvances (k + 1) x).mask = true))

/-- 61 R1408 to R1410, R1412 to R1414, 20 R212, R241: a transfer on channel c steps the channel's registers, clears the refresh
request for channel 0, and changes nothing else of CPU and devices. A write stores one byte, which is the environment's, at the
page and current address; a read gives the byte there to the device; both are recorded with the channel; a verify, and a read on
channel 0, access nothing. A disabled controller does nothing; with none requested nothing but the DREQ sample changes; a
refresh request alone makes one channel 0 transfer. Each turn of the service loop samples DREQ (the environment's samples,
log 9) and serves the channel that asks and has priority, fixed or rotating, of those that have not reached terminal count: one
transfer in single mode, all N + 1 in block mode, in demand mode those until DREQ is sampled inactive or the count ends; it is
then the one served last. A refused form marks the state instead, and the next step answers the refusal (the model's reading,
log 22). A lone channel in block mode makes its N + 1 transfers and the step ends. -/
def Obligations.DmaTransfers : Prop :=
  (∀ (s : State) (c : BitVec 2),
    let x := s.dev.dma.get c
    let a : LinAddr := x.page ++ x.curAddr
    let t := dmaTransfer c s
    t.cpu = s.cpu ∧ t.biu = s.biu ∧
    t.dev = { s.dev with dma := s.dev.dma.set c x.advance, refreshReq := s.dev.refreshReq && c != 0 } ∧
    (x.xfer = .write → ∃ v, t.bus = s.bus.store a v ∧ t.history = .dmaWrite c.toNat a v :: s.history) ∧
    (x.xfer = .read → c ≠ 0 → ∃ v, t.bus = s.bus ∧ t.history = .dmaRead c.toNat a v :: s.history ∧
      (s.bus.isDevice a = false → v = s.bus.byte a)) ∧
    (x.xfer = .verify ∨ (x.xfer = .read ∧ c = 0) → t.bus = s.bus ∧ t.history = s.history)) ∧
  (∀ s : State,
    (s.dev.dma.command.getLsbD 2 = true → dmaStep s = s) ∧
    (s.env.dreqSamples = [] → (∀ c, dmaRequest s c = false) → dmaStep s = s) ∧
    (s.env.dreqSamples = [] → s.dev.dma.command = 0 → s.dev.refreshReq = true → s.dev.dma.ch0.mask = false →
      s.dev.dma.ch0.req = false → s.dev.dma.ch0.select = .single → s.dev.dma.ch0.xfer = .read →
      (∀ c, c ≠ 0 → dmaRequest s c = false) →
      dmaStep s = s.mapDev fun d =>
        { d with refreshReq := false, dma := { d.dma with ch0 := d.dma.ch0.advance, rotLast := 0 } })) ∧
  (∀ s : State, s.dev.dma.command.getLsbD 2 = false → dmaStep s = dmaLoop (4 * 65536 + 1) [] s) ∧
  (∀ (n : Nat) (done : List (BitVec 2)) (s : State),
    let u := sampleDreq s
    (s.env.dreqSamples = [] → u = s) ∧
    (∀ d ds, s.env.dreqSamples = d :: ds → u = s.mapEnv fun e => { e with dreq := d, dreqSamples := ds }) ∧
    ((∀ c, Asks u c → c ∈ done) → dmaLoop (n + 1) done s = u) ∧
    ∀ c, Chosen u done c →
      (RefusesDma u c →
        dmaLoop (n + 1) done s = { u with marks := { u.marks with refusal := some (.dmaForm c.toNat) } }) ∧
      (¬ RefusesDma u c →
        let x := u.dev.dma.get c
        let last := x.curCount.toNat
        (x.select = .single → dmaLoop (n + 1) done s =
          dmaLoop n (if last = 0 then c :: done else done) (servedLast c (dmaTransfer c u))) ∧
        (x.select = .block → dmaLoop (n + 1) done s = dmaLoop n (c :: done) (servedLast c (transfers c (last + 1) u))) ∧
        (x.select = .demand → ∀ k ≤ last, (∀ j, 1 ≤ j → j ≤ k → dreqOf (sampledTransfers c j u) c = true) →
          (k = last → dmaLoop (n + 1) done s =
            dmaLoop n (c :: done) (servedLast c (dmaTransfer c (sampledTransfers c k u)))) ∧
          (k < last → dreqOf (sampledTransfers c (k + 1) u) c = false → dmaLoop (n + 1) done s =
            dmaLoop n done (servedLast c (sampledTransfers c (k + 1) u)))))) ∧
  (∀ (s : State) (r : Refusal), s.marks.fault = none → s.marks.refusal = some r → step s = .refused r) ∧
  (∀ (s : State) (c : BitVec 2), s.dev.dma.command.getLsbD 2 = false → s.env.dreqSamples = [] → (∀ q, Asks s q ↔ q = c) →
    ¬ RefusesDma s c → (s.dev.dma.get c).select = .block →
    dmaStep s = servedLast c (transfers c ((s.dev.dma.get c).curCount.toNat + 1) s))

/-! The host's register layout. -/

/-- 70 R1530, 31 R552: fourteen words, 28 bytes, in the fixed order, FLAGS as its image; storing the registers of a state in
which every general register has been written, and loading the buffer, is the identity. -/
def Obligations.RegisterLayout : Prop :=
  ∀ s : State, (∀ r, s.cpu.written.get r = true) →
    (storeRegs s).1.length = 28 ∧ (loadRegs (storeRegs s).1 s).cpu = s.cpu ∧
    (List.range 14).map (bufWord (storeRegs s).1) =
      [s.reg16 .ax, s.reg16 .bx, s.reg16 .cx, s.reg16 .dx, s.seg .ss, s.reg16 .sp, s.cpu.flags.image, s.cpu.ip, s.seg .cs,
        s.seg .ds, s.seg .es, s.reg16 .bp, s.reg16 .si, s.reg16 .di]
end

