-- ==== Sys2Proof/Laws/State.lean ====
section
/-! SUPPORT. What each setter of the state leaves in each component: one lemma per component per setter, true by rfl, and
the read-after-write lemmas of the register files. -/

namespace Sys2Proof.Machine

/-! `State.mapCpu`. -/

@[simp] theorem mapCpu_cpu (s : State) (f : Cpu → Cpu) : (s.mapCpu f).cpu = f s.cpu := rfl
@[simp] theorem mapCpu_biu (s : State) (f : Cpu → Cpu) : (s.mapCpu f).biu = s.biu := rfl
@[simp] theorem mapCpu_bus (s : State) (f : Cpu → Cpu) : (s.mapCpu f).bus = s.bus := rfl
@[simp] theorem mapCpu_dev (s : State) (f : Cpu → Cpu) : (s.mapCpu f).dev = s.dev := rfl
@[simp] theorem mapCpu_env (s : State) (f : Cpu → Cpu) : (s.mapCpu f).env = s.env := rfl
@[simp] theorem mapCpu_params (s : State) (f : Cpu → Cpu) : (s.mapCpu f).params = s.params := rfl
@[simp] theorem mapCpu_history (s : State) (f : Cpu → Cpu) : (s.mapCpu f).history = s.history := rfl
@[simp] theorem mapCpu_marks (s : State) (f : Cpu → Cpu) : (s.mapCpu f).marks = s.marks := rfl
@[simp] theorem mapCpu_draws (s : State) (f : Cpu → Cpu) : (s.mapCpu f).draws = s.draws := rfl

/-! `State.mapBiu`. -/

@[simp] theorem mapBiu_cpu (s : State) (f : Biu → Biu) : (s.mapBiu f).cpu = s.cpu := rfl
@[simp] theorem mapBiu_biu (s : State) (f : Biu → Biu) : (s.mapBiu f).biu = f s.biu := rfl
@[simp] theorem mapBiu_bus (s : State) (f : Biu → Biu) : (s.mapBiu f).bus = s.bus := rfl
@[simp] theorem mapBiu_dev (s : State) (f : Biu → Biu) : (s.mapBiu f).dev = s.dev := rfl
@[simp] theorem mapBiu_env (s : State) (f : Biu → Biu) : (s.mapBiu f).env = s.env := rfl
@[simp] theorem mapBiu_params (s : State) (f : Biu → Biu) : (s.mapBiu f).params = s.params := rfl
@[simp] theorem mapBiu_history (s : State) (f : Biu → Biu) : (s.mapBiu f).history = s.history := rfl
@[simp] theorem mapBiu_marks (s : State) (f : Biu → Biu) : (s.mapBiu f).marks = s.marks := rfl
@[simp] theorem mapBiu_draws (s : State) (f : Biu → Biu) : (s.mapBiu f).draws = s.draws := rfl

/-! `State.mapBus`. -/

@[simp] theorem mapBus_cpu (s : State) (f : Bus → Bus) : (s.mapBus f).cpu = s.cpu := rfl
@[simp] theorem mapBus_biu (s : State) (f : Bus → Bus) : (s.mapBus f).biu = s.biu := rfl
@[simp] theorem mapBus_bus (s : State) (f : Bus → Bus) : (s.mapBus f).bus = f s.bus := rfl
@[simp] theorem mapBus_dev (s : State) (f : Bus → Bus) : (s.mapBus f).dev = s.dev := rfl
@[simp] theorem mapBus_env (s : State) (f : Bus → Bus) : (s.mapBus f).env = s.env := rfl
@[simp] theorem mapBus_params (s : State) (f : Bus → Bus) : (s.mapBus f).params = s.params := rfl
@[simp] theorem mapBus_history (s : State) (f : Bus → Bus) : (s.mapBus f).history = s.history := rfl
@[simp] theorem mapBus_marks (s : State) (f : Bus → Bus) : (s.mapBus f).marks = s.marks := rfl
@[simp] theorem mapBus_draws (s : State) (f : Bus → Bus) : (s.mapBus f).draws = s.draws := rfl

/-! `State.mapDev`. -/

@[simp] theorem mapDev_cpu (s : State) (f : Devices → Devices) : (s.mapDev f).cpu = s.cpu := rfl
@[simp] theorem mapDev_biu (s : State) (f : Devices → Devices) : (s.mapDev f).biu = s.biu := rfl
@[simp] theorem mapDev_bus (s : State) (f : Devices → Devices) : (s.mapDev f).bus = s.bus := rfl
@[simp] theorem mapDev_dev (s : State) (f : Devices → Devices) : (s.mapDev f).dev = f s.dev := rfl
@[simp] theorem mapDev_env (s : State) (f : Devices → Devices) : (s.mapDev f).env = s.env := rfl
@[simp] theorem mapDev_params (s : State) (f : Devices → Devices) : (s.mapDev f).params = s.params := rfl
@[simp] theorem mapDev_history (s : State) (f : Devices → Devices) : (s.mapDev f).history = s.history := rfl
@[simp] theorem mapDev_marks (s : State) (f : Devices → Devices) : (s.mapDev f).marks = s.marks := rfl
@[simp] theorem mapDev_draws (s : State) (f : Devices → Devices) : (s.mapDev f).draws = s.draws := rfl

/-! `State.mapEnv`. -/

@[simp] theorem mapEnv_cpu (s : State) (f : Env → Env) : (s.mapEnv f).cpu = s.cpu := rfl
@[simp] theorem mapEnv_biu (s : State) (f : Env → Env) : (s.mapEnv f).biu = s.biu := rfl
@[simp] theorem mapEnv_bus (s : State) (f : Env → Env) : (s.mapEnv f).bus = s.bus := rfl
@[simp] theorem mapEnv_dev (s : State) (f : Env → Env) : (s.mapEnv f).dev = s.dev := rfl
@[simp] theorem mapEnv_env (s : State) (f : Env → Env) : (s.mapEnv f).env = f s.env := rfl
@[simp] theorem mapEnv_params (s : State) (f : Env → Env) : (s.mapEnv f).params = s.params := rfl
@[simp] theorem mapEnv_history (s : State) (f : Env → Env) : (s.mapEnv f).history = s.history := rfl
@[simp] theorem mapEnv_marks (s : State) (f : Env → Env) : (s.mapEnv f).marks = s.marks := rfl
@[simp] theorem mapEnv_draws (s : State) (f : Env → Env) : (s.mapEnv f).draws = s.draws := rfl

/-! `State.record`. -/

@[simp] theorem record_cpu (s : State) (e : BusEvent) : (s.record e).cpu = s.cpu := rfl
@[simp] theorem record_biu (s : State) (e : BusEvent) : (s.record e).biu = s.biu := rfl
@[simp] theorem record_bus (s : State) (e : BusEvent) : (s.record e).bus = s.bus := rfl
@[simp] theorem record_dev (s : State) (e : BusEvent) : (s.record e).dev = s.dev := rfl
@[simp] theorem record_env (s : State) (e : BusEvent) : (s.record e).env = s.env := rfl
@[simp] theorem record_params (s : State) (e : BusEvent) : (s.record e).params = s.params := rfl
@[simp] theorem record_history (s : State) (e : BusEvent) : (s.record e).history = e :: s.history := rfl
@[simp] theorem record_marks (s : State) (e : BusEvent) : (s.record e).marks = s.marks := rfl
@[simp] theorem record_draws (s : State) (e : BusEvent) : (s.record e).draws = s.draws := rfl

/-! `State.bumpDraws`. -/

@[simp] theorem bumpDraws_cpu (s : State) : (s.bumpDraws).cpu = s.cpu := rfl
@[simp] theorem bumpDraws_biu (s : State) : (s.bumpDraws).biu = s.biu := rfl
@[simp] theorem bumpDraws_bus (s : State) : (s.bumpDraws).bus = s.bus := rfl
@[simp] theorem bumpDraws_dev (s : State) : (s.bumpDraws).dev = s.dev := rfl
@[simp] theorem bumpDraws_env (s : State) : (s.bumpDraws).env = s.env := rfl
@[simp] theorem bumpDraws_params (s : State) : (s.bumpDraws).params = s.params := rfl
@[simp] theorem bumpDraws_history (s : State) : (s.bumpDraws).history = s.history := rfl
@[simp] theorem bumpDraws_marks (s : State) : (s.bumpDraws).marks = s.marks := rfl
@[simp] theorem bumpDraws_draws (s : State) : (s.bumpDraws).draws = s.draws + 1 := rfl

/-! `State.setReg16`. -/

@[simp] theorem setReg16_cpu (s : State) (r : Reg16) (v : Word) : (s.setReg16 r v).cpu = s.cpu.put16 r v := rfl
@[simp] theorem setReg16_biu (s : State) (r : Reg16) (v : Word) : (s.setReg16 r v).biu = s.biu := rfl
@[simp] theorem setReg16_bus (s : State) (r : Reg16) (v : Word) : (s.setReg16 r v).bus = s.bus := rfl
@[simp] theorem setReg16_dev (s : State) (r : Reg16) (v : Word) : (s.setReg16 r v).dev = s.dev := rfl
@[simp] theorem setReg16_env (s : State) (r : Reg16) (v : Word) : (s.setReg16 r v).env = s.env := rfl
@[simp] theorem setReg16_params (s : State) (r : Reg16) (v : Word) : (s.setReg16 r v).params = s.params := rfl
@[simp] theorem setReg16_history (s : State) (r : Reg16) (v : Word) : (s.setReg16 r v).history = s.history := rfl
@[simp] theorem setReg16_marks (s : State) (r : Reg16) (v : Word) : (s.setReg16 r v).marks = s.marks := rfl
@[simp] theorem setReg16_draws (s : State) (r : Reg16) (v : Word) : (s.setReg16 r v).draws = s.draws := rfl

/-! `State.setSeg`. -/

@[simp] theorem setSeg_cpu (s : State) (r : Sreg) (v : Word) : (s.setSeg r v).cpu = s.cpu.putSeg r v := rfl
@[simp] theorem setSeg_biu (s : State) (r : Sreg) (v : Word) : (s.setSeg r v).biu = s.biu := rfl
@[simp] theorem setSeg_bus (s : State) (r : Sreg) (v : Word) : (s.setSeg r v).bus = s.bus := rfl
@[simp] theorem setSeg_dev (s : State) (r : Sreg) (v : Word) : (s.setSeg r v).dev = s.dev := rfl
@[simp] theorem setSeg_env (s : State) (r : Sreg) (v : Word) : (s.setSeg r v).env = s.env := rfl
@[simp] theorem setSeg_params (s : State) (r : Sreg) (v : Word) : (s.setSeg r v).params = s.params := rfl
@[simp] theorem setSeg_history (s : State) (r : Sreg) (v : Word) : (s.setSeg r v).history = s.history := rfl
@[simp] theorem setSeg_marks (s : State) (r : Sreg) (v : Word) : (s.setSeg r v).marks = s.marks := rfl
@[simp] theorem setSeg_draws (s : State) (r : Sreg) (v : Word) : (s.setSeg r v).draws = s.draws := rfl

/-! `State.setIp`. -/

@[simp] theorem setIp_cpu (s : State) (v : Word) : (s.setIp v).cpu = s.cpu.putIp v := rfl
@[simp] theorem setIp_biu (s : State) (v : Word) : (s.setIp v).biu = s.biu := rfl
@[simp] theorem setIp_bus (s : State) (v : Word) : (s.setIp v).bus = s.bus := rfl
@[simp] theorem setIp_dev (s : State) (v : Word) : (s.setIp v).dev = s.dev := rfl
@[simp] theorem setIp_env (s : State) (v : Word) : (s.setIp v).env = s.env := rfl
@[simp] theorem setIp_params (s : State) (v : Word) : (s.setIp v).params = s.params := rfl
@[simp] theorem setIp_history (s : State) (v : Word) : (s.setIp v).history = s.history := rfl
@[simp] theorem setIp_marks (s : State) (v : Word) : (s.setIp v).marks = s.marks := rfl
@[simp] theorem setIp_draws (s : State) (v : Word) : (s.setIp v).draws = s.draws := rfl

/-! `State.setDecoding`. -/

@[simp] theorem setDecoding_cpu (s : State) (b : Bool) : (s.setDecoding b).cpu = { s.cpu with decoding := b } := rfl
@[simp] theorem setDecoding_biu (s : State) (b : Bool) : (s.setDecoding b).biu = s.biu := rfl
@[simp] theorem setDecoding_bus (s : State) (b : Bool) : (s.setDecoding b).bus = s.bus := rfl
@[simp] theorem setDecoding_dev (s : State) (b : Bool) : (s.setDecoding b).dev = s.dev := rfl
@[simp] theorem setDecoding_env (s : State) (b : Bool) : (s.setDecoding b).env = s.env := rfl
@[simp] theorem setDecoding_params (s : State) (b : Bool) : (s.setDecoding b).params = s.params := rfl
@[simp] theorem setDecoding_history (s : State) (b : Bool) : (s.setDecoding b).history = s.history := rfl
@[simp] theorem setDecoding_marks (s : State) (b : Bool) : (s.setDecoding b).marks = s.marks := rfl
@[simp] theorem setDecoding_draws (s : State) (b : Bool) : (s.setDecoding b).draws = s.draws := rfl

/-! `State.setFlags`. -/

@[simp] theorem setFlags_cpu (s : State) (f : Flags) : (s.setFlags f).cpu = s.cpu.putFlags f := rfl
@[simp] theorem setFlags_biu (s : State) (f : Flags) : (s.setFlags f).biu = s.biu := rfl
@[simp] theorem setFlags_bus (s : State) (f : Flags) : (s.setFlags f).bus = s.bus := rfl
@[simp] theorem setFlags_dev (s : State) (f : Flags) : (s.setFlags f).dev = s.dev := rfl
@[simp] theorem setFlags_env (s : State) (f : Flags) : (s.setFlags f).env = s.env := rfl
@[simp] theorem setFlags_params (s : State) (f : Flags) : (s.setFlags f).params = s.params := rfl
@[simp] theorem setFlags_history (s : State) (f : Flags) : (s.setFlags f).history = s.history := rfl
@[simp] theorem setFlags_marks (s : State) (f : Flags) : (s.setFlags f).marks = s.marks := rfl
@[simp] theorem setFlags_draws (s : State) (f : Flags) : (s.setFlags f).draws = s.draws := rfl

/-! `State.mapFlags`. -/

@[simp] theorem mapFlags_cpu (s : State) (g : Flags → Flags) : (s.mapFlags g).cpu = s.cpu.putFlags (g s.cpu.flags) := rfl
@[simp] theorem mapFlags_biu (s : State) (g : Flags → Flags) : (s.mapFlags g).biu = s.biu := rfl
@[simp] theorem mapFlags_bus (s : State) (g : Flags → Flags) : (s.mapFlags g).bus = s.bus := rfl
@[simp] theorem mapFlags_dev (s : State) (g : Flags → Flags) : (s.mapFlags g).dev = s.dev := rfl
@[simp] theorem mapFlags_env (s : State) (g : Flags → Flags) : (s.mapFlags g).env = s.env := rfl
@[simp] theorem mapFlags_params (s : State) (g : Flags → Flags) : (s.mapFlags g).params = s.params := rfl
@[simp] theorem mapFlags_history (s : State) (g : Flags → Flags) : (s.mapFlags g).history = s.history := rfl
@[simp] theorem mapFlags_marks (s : State) (g : Flags → Flags) : (s.mapFlags g).marks = s.marks := rfl
@[simp] theorem mapFlags_draws (s : State) (g : Flags → Flags) : (s.mapFlags g).draws = s.draws := rfl

/-! `State.setRepRun`. -/

@[simp] theorem setRepRun_cpu (s : State) (r : Option RepRun) : (s.setRepRun r).cpu = { s.cpu with repRun := r } := rfl
@[simp] theorem setRepRun_biu (s : State) (r : Option RepRun) : (s.setRepRun r).biu = s.biu := rfl
@[simp] theorem setRepRun_bus (s : State) (r : Option RepRun) : (s.setRepRun r).bus = s.bus := rfl
@[simp] theorem setRepRun_dev (s : State) (r : Option RepRun) : (s.setRepRun r).dev = s.dev := rfl
@[simp] theorem setRepRun_env (s : State) (r : Option RepRun) : (s.setRepRun r).env = s.env := rfl
@[simp] theorem setRepRun_params (s : State) (r : Option RepRun) : (s.setRepRun r).params = s.params := rfl
@[simp] theorem setRepRun_history (s : State) (r : Option RepRun) : (s.setRepRun r).history = s.history := rfl
@[simp] theorem setRepRun_marks (s : State) (r : Option RepRun) : (s.setRepRun r).marks = s.marks := rfl
@[simp] theorem setRepRun_draws (s : State) (r : Option RepRun) : (s.setRepRun r).draws = s.draws := rfl

/-! `State.mapDma`. -/

@[simp] theorem mapDma_cpu (s : State) (f : Dma → Dma) : (s.mapDma f).cpu = s.cpu := rfl
@[simp] theorem mapDma_biu (s : State) (f : Dma → Dma) : (s.mapDma f).biu = s.biu := rfl
@[simp] theorem mapDma_bus (s : State) (f : Dma → Dma) : (s.mapDma f).bus = s.bus := rfl
@[simp] theorem mapDma_dev (s : State) (f : Dma → Dma) : (s.mapDma f).dev = { s.dev with dma := f s.dev.dma } := rfl
@[simp] theorem mapDma_env (s : State) (f : Dma → Dma) : (s.mapDma f).env = s.env := rfl
@[simp] theorem mapDma_params (s : State) (f : Dma → Dma) : (s.mapDma f).params = s.params := rfl
@[simp] theorem mapDma_history (s : State) (f : Dma → Dma) : (s.mapDma f).history = s.history := rfl
@[simp] theorem mapDma_marks (s : State) (f : Dma → Dma) : (s.mapDma f).marks = s.marks := rfl
@[simp] theorem mapDma_draws (s : State) (f : Dma → Dma) : (s.mapDma f).draws = s.draws := rfl

/-! `State.mapPic`. -/

@[simp] theorem mapPic_cpu (s : State) (f : Pic → Pic) : (s.mapPic f).cpu = s.cpu := rfl
@[simp] theorem mapPic_biu (s : State) (f : Pic → Pic) : (s.mapPic f).biu = s.biu := rfl
@[simp] theorem mapPic_bus (s : State) (f : Pic → Pic) : (s.mapPic f).bus = s.bus := rfl
@[simp] theorem mapPic_dev (s : State) (f : Pic → Pic) : (s.mapPic f).dev = { s.dev with pic := f s.dev.pic } := rfl
@[simp] theorem mapPic_env (s : State) (f : Pic → Pic) : (s.mapPic f).env = s.env := rfl
@[simp] theorem mapPic_params (s : State) (f : Pic → Pic) : (s.mapPic f).params = s.params := rfl
@[simp] theorem mapPic_history (s : State) (f : Pic → Pic) : (s.mapPic f).history = s.history := rfl
@[simp] theorem mapPic_marks (s : State) (f : Pic → Pic) : (s.mapPic f).marks = s.marks := rfl
@[simp] theorem mapPic_draws (s : State) (f : Pic → Pic) : (s.mapPic f).draws = s.draws := rfl

/-! `suspendFetch`. -/

@[simp] theorem suspendFetch_cpu (s : State) : (suspendFetch s).cpu = s.cpu := rfl
@[simp] theorem suspendFetch_biu (s : State) : (suspendFetch s).biu = { s.biu with fetchSuspended := true } := rfl
@[simp] theorem suspendFetch_bus (s : State) : (suspendFetch s).bus = s.bus := rfl
@[simp] theorem suspendFetch_dev (s : State) : (suspendFetch s).dev = s.dev := rfl
@[simp] theorem suspendFetch_env (s : State) : (suspendFetch s).env = s.env := rfl
@[simp] theorem suspendFetch_params (s : State) : (suspendFetch s).params = s.params := rfl
@[simp] theorem suspendFetch_history (s : State) : (suspendFetch s).history = s.history := rfl
@[simp] theorem suspendFetch_marks (s : State) : (suspendFetch s).marks = s.marks := rfl
@[simp] theorem suspendFetch_draws (s : State) : (suspendFetch s).draws = s.draws := rfl

/-! `resumeFetch`. -/

@[simp] theorem resumeFetch_cpu (s : State) : (resumeFetch s).cpu = s.cpu := rfl
@[simp] theorem resumeFetch_biu (s : State) : (resumeFetch s).biu = { s.biu with fetchSuspended := false } := rfl
@[simp] theorem resumeFetch_bus (s : State) : (resumeFetch s).bus = s.bus := rfl
@[simp] theorem resumeFetch_dev (s : State) : (resumeFetch s).dev = s.dev := rfl
@[simp] theorem resumeFetch_env (s : State) : (resumeFetch s).env = s.env := rfl
@[simp] theorem resumeFetch_params (s : State) : (resumeFetch s).params = s.params := rfl
@[simp] theorem resumeFetch_history (s : State) : (resumeFetch s).history = s.history := rfl
@[simp] theorem resumeFetch_marks (s : State) : (resumeFetch s).marks = s.marks := rfl
@[simp] theorem resumeFetch_draws (s : State) : (resumeFetch s).draws = s.draws := rfl

/-! `Biu.land`. -/

@[simp] theorem land_queue (b : Biu) : b.land.queue =
    b.queue ++ (b.fetching.map fun a => QueueByte.mk b.cycle.data a).toList := rfl
@[simp] theorem land_fetching (b : Biu) : b.land.fetching = none := rfl
@[simp] theorem land_pfp (b : Biu) : b.land.pfp = b.pfp + BitVec.ofNat 16 b.fetching.toList.length := rfl
@[simp] theorem land_fetchSuspended (b : Biu) : b.land.fetchSuspended = b.fetchSuspended := rfl
@[simp] theorem land_cycle (b : Biu) : b.land.cycle = b.cycle := rfl

/-! `Biu.emptied`. -/

@[simp] theorem emptied_queue (ip : Word) (b : Biu) : (b.emptied ip).queue = [] := rfl
@[simp] theorem emptied_fetching (ip : Word) (b : Biu) : (b.emptied ip).fetching = none := rfl
@[simp] theorem emptied_pfp (ip : Word) (b : Biu) : (b.emptied ip).pfp = ip := rfl
@[simp] theorem emptied_fetchSuspended (ip : Word) (b : Biu) : (b.emptied ip).fetchSuspended = b.fetchSuspended := rfl
@[simp] theorem emptied_cycle (ip : Word) (b : Biu) : (b.emptied ip).cycle = b.cycle := rfl

/-! `State.holdData`. -/

@[simp] theorem holdData_cpu (s : State) (v : Option Byte) (n : Nat) : (s.holdData v n).cpu = s.cpu := rfl
@[simp] theorem holdData_biu (s : State) (v : Option Byte) (n : Nat) : (s.holdData v n).biu =
    { s.biu with cycle := finishCycle (dataPhase v n s.biu.cycle) } := rfl
@[simp] theorem holdData_bus (s : State) (v : Option Byte) (n : Nat) : (s.holdData v n).bus = s.bus := rfl
@[simp] theorem holdData_dev (s : State) (v : Option Byte) (n : Nat) : (s.holdData v n).dev = s.dev := rfl
@[simp] theorem holdData_env (s : State) (v : Option Byte) (n : Nat) : (s.holdData v n).env = s.env := rfl
@[simp] theorem holdData_params (s : State) (v : Option Byte) (n : Nat) : (s.holdData v n).params = s.params := rfl
@[simp] theorem holdData_history (s : State) (v : Option Byte) (n : Nat) : (s.holdData v n).history = s.history := rfl
@[simp] theorem holdData_marks (s : State) (v : Option Byte) (n : Nat) : (s.holdData v n).marks = s.marks := rfl
@[simp] theorem holdData_draws (s : State) (v : Option Byte) (n : Nat) : (s.holdData v n).draws = s.draws := rfl

/-! `State.writeData`. -/

@[simp] theorem writeData_cpu (s : State) (op : QueueOp) (n : Nat) : (s.writeData op n).cpu = s.cpu := rfl
@[simp] theorem writeData_biu (s : State) (op : QueueOp) (n : Nat) : (s.writeData op n).biu =
    { s.biu with cycle := { dataPhase none n s.biu.cycle with queueOp := op } } := rfl
@[simp] theorem writeData_bus (s : State) (op : QueueOp) (n : Nat) : (s.writeData op n).bus = s.bus := rfl
@[simp] theorem writeData_dev (s : State) (op : QueueOp) (n : Nat) : (s.writeData op n).dev = s.dev := rfl
@[simp] theorem writeData_env (s : State) (op : QueueOp) (n : Nat) : (s.writeData op n).env = s.env := rfl
@[simp] theorem writeData_params (s : State) (op : QueueOp) (n : Nat) : (s.writeData op n).params = s.params := rfl
@[simp] theorem writeData_history (s : State) (op : QueueOp) (n : Nat) : (s.writeData op n).history = s.history := rfl
@[simp] theorem writeData_marks (s : State) (op : QueueOp) (n : Nat) : (s.writeData op n).marks = s.marks := rfl
@[simp] theorem writeData_draws (s : State) (op : QueueOp) (n : Nat) : (s.writeData op n).draws = s.draws := rfl

/-! `startFetch`. -/

@[simp] theorem startFetch_cpu (s : State) (op : QueueOp) (v : Option Byte) : (startFetch s op v).cpu = s.cpu := rfl
@[simp] theorem startFetch_biu (s : State) (op : QueueOp) (v : Option Byte) : (startFetch s op v).biu =
    { s.biu with
      fetching := some (lin s.cpu.segs.cs s.biu.pfp)
      cycle := tickWith op v { s.biu.cycle with
        pending := some { kind := .codeFetch, access := .code, addr := lin s.cpu.segs.cs s.biu.pfp, data := none } } } := rfl
@[simp] theorem startFetch_bus (s : State) (op : QueueOp) (v : Option Byte) : (startFetch s op v).bus = s.bus := rfl
@[simp] theorem startFetch_dev (s : State) (op : QueueOp) (v : Option Byte) : (startFetch s op v).dev = s.dev := rfl
@[simp] theorem startFetch_env (s : State) (op : QueueOp) (v : Option Byte) : (startFetch s op v).env = s.env := rfl
@[simp] theorem startFetch_params (s : State) (op : QueueOp) (v : Option Byte) : (startFetch s op v).params = s.params := rfl
@[simp] theorem startFetch_history (s : State) (op : QueueOp) (v : Option Byte) : (startFetch s op v).history = s.history := rfl
@[simp] theorem startFetch_marks (s : State) (op : QueueOp) (v : Option Byte) : (startFetch s op v).marks = s.marks := rfl
@[simp] theorem startFetch_draws (s : State) (op : QueueOp) (v : Option Byte) : (startFetch s op v).draws = s.draws := rfl

/-! `drawBit`. -/

@[simp] theorem drawBit_fst (s : State) : (drawBit s).1 = Config.freeBit s.draws := rfl
@[simp] theorem drawBit_cpu (s : State) : (drawBit s).2.cpu = s.cpu := rfl
@[simp] theorem drawBit_biu (s : State) : (drawBit s).2.biu = s.biu := rfl
@[simp] theorem drawBit_bus (s : State) : (drawBit s).2.bus = s.bus := rfl
@[simp] theorem drawBit_dev (s : State) : (drawBit s).2.dev = s.dev := rfl
@[simp] theorem drawBit_env (s : State) : (drawBit s).2.env = s.env := rfl
@[simp] theorem drawBit_params (s : State) : (drawBit s).2.params = s.params := rfl
@[simp] theorem drawBit_history (s : State) : (drawBit s).2.history = s.history := rfl
@[simp] theorem drawBit_marks (s : State) : (drawBit s).2.marks = s.marks := rfl
@[simp] theorem drawBit_draws (s : State) : (drawBit s).2.draws = s.draws + 1 := rfl

/-! `drawByte`. -/

@[simp] theorem drawByte_fst (s : State) : (drawByte s).1 = Config.freeByte s.draws := rfl
@[simp] theorem drawByte_cpu (s : State) : (drawByte s).2.cpu = s.cpu := rfl
@[simp] theorem drawByte_biu (s : State) : (drawByte s).2.biu = s.biu := rfl
@[simp] theorem drawByte_bus (s : State) : (drawByte s).2.bus = s.bus := rfl
@[simp] theorem drawByte_dev (s : State) : (drawByte s).2.dev = s.dev := rfl
@[simp] theorem drawByte_env (s : State) : (drawByte s).2.env = s.env := rfl
@[simp] theorem drawByte_params (s : State) : (drawByte s).2.params = s.params := rfl
@[simp] theorem drawByte_history (s : State) : (drawByte s).2.history = s.history := rfl
@[simp] theorem drawByte_marks (s : State) : (drawByte s).2.marks = s.marks := rfl
@[simp] theorem drawByte_draws (s : State) : (drawByte s).2.draws = s.draws + 1 := rfl

/-! `drawAddr`. -/

@[simp] theorem drawAddr_fst (s : State) : (drawAddr s).1 = Config.freeAddr s.draws := rfl
@[simp] theorem drawAddr_cpu (s : State) : (drawAddr s).2.cpu = s.cpu := rfl
@[simp] theorem drawAddr_biu (s : State) : (drawAddr s).2.biu = s.biu := rfl
@[simp] theorem drawAddr_bus (s : State) : (drawAddr s).2.bus = s.bus := rfl
@[simp] theorem drawAddr_dev (s : State) : (drawAddr s).2.dev = s.dev := rfl
@[simp] theorem drawAddr_env (s : State) : (drawAddr s).2.env = s.env := rfl
@[simp] theorem drawAddr_params (s : State) : (drawAddr s).2.params = s.params := rfl
@[simp] theorem drawAddr_history (s : State) : (drawAddr s).2.history = s.history := rfl
@[simp] theorem drawAddr_marks (s : State) : (drawAddr s).2.marks = s.marks := rfl
@[simp] theorem drawAddr_draws (s : State) : (drawAddr s).2.draws = s.draws + 1 := rfl

/-! `drawWord`. -/

@[simp] theorem drawWord_fst (s : State) : (drawWord s).1 = Config.freeWord s.draws := rfl
@[simp] theorem drawWord_cpu (s : State) : (drawWord s).2.cpu = s.cpu := rfl
@[simp] theorem drawWord_biu (s : State) : (drawWord s).2.biu = s.biu := rfl
@[simp] theorem drawWord_bus (s : State) : (drawWord s).2.bus = s.bus := rfl
@[simp] theorem drawWord_dev (s : State) : (drawWord s).2.dev = s.dev := rfl
@[simp] theorem drawWord_env (s : State) : (drawWord s).2.env = s.env := rfl
@[simp] theorem drawWord_params (s : State) : (drawWord s).2.params = s.params := rfl
@[simp] theorem drawWord_history (s : State) : (drawWord s).2.history = s.history := rfl
@[simp] theorem drawWord_marks (s : State) : (drawWord s).2.marks = s.marks := rfl
@[simp] theorem drawWord_draws (s : State) : (drawWord s).2.draws = s.draws + 1 := rfl

/-! What each change of the CPU leaves in each field. -/

@[simp] theorem put16_regs (c : Cpu) (r : Reg16) (v : Word) : (c.put16 r v).regs = c.regs.set r v := rfl
@[simp] theorem put16_written (c : Cpu) (r : Reg16) (v : Word) : (c.put16 r v).written = c.written.set r true := rfl
@[simp] theorem put16_segs (c : Cpu) (r : Reg16) (v : Word) : (c.put16 r v).segs = c.segs := rfl
@[simp] theorem put16_ip (c : Cpu) (r : Reg16) (v : Word) : (c.put16 r v).ip = c.ip := rfl
@[simp] theorem put16_flags (c : Cpu) (r : Reg16) (v : Word) : (c.put16 r v).flags = c.flags := rfl
@[simp] theorem put16_halted (c : Cpu) (r : Reg16) (v : Word) : (c.put16 r v).halted = c.halted := rfl
@[simp] theorem put16_inhibit (c : Cpu) (r : Reg16) (v : Word) : (c.put16 r v).inhibit = c.inhibit := rfl
@[simp] theorem put16_nmiLatch (c : Cpu) (r : Reg16) (v : Word) : (c.put16 r v).nmiLatch = c.nmiLatch := rfl
@[simp] theorem put16_nmiPrev (c : Cpu) (r : Reg16) (v : Word) : (c.put16 r v).nmiPrev = c.nmiPrev := rfl
@[simp] theorem put16_tempTF (c : Cpu) (r : Reg16) (v : Word) : (c.put16 r v).tempTF = c.tempTF := rfl
@[simp] theorem put16_trapPending (c : Cpu) (r : Reg16) (v : Word) : (c.put16 r v).trapPending = c.trapPending := rfl
@[simp] theorem put16_repRun (c : Cpu) (r : Reg16) (v : Word) : (c.put16 r v).repRun = c.repRun := rfl
@[simp] theorem put16_pfx (c : Cpu) (r : Reg16) (v : Word) : (c.put16 r v).pfx = c.pfx := rfl
@[simp] theorem put16_f1 (c : Cpu) (r : Reg16) (v : Word) : (c.put16 r v).f1 = c.f1 := rfl
@[simp] theorem put16_ipStart (c : Cpu) (r : Reg16) (v : Word) : (c.put16 r v).ipStart = c.ipStart := rfl
@[simp] theorem put16_ipLastPfx (c : Cpu) (r : Reg16) (v : Word) : (c.put16 r v).ipLastPfx = c.ipLastPfx := rfl

@[simp] theorem putSeg_regs (c : Cpu) (r : Sreg) (v : Word) : (c.putSeg r v).regs = c.regs := rfl
@[simp] theorem putSeg_written (c : Cpu) (r : Sreg) (v : Word) : (c.putSeg r v).written = c.written := rfl
@[simp] theorem putSeg_segs (c : Cpu) (r : Sreg) (v : Word) : (c.putSeg r v).segs = c.segs.set r v := rfl
@[simp] theorem putSeg_ip (c : Cpu) (r : Sreg) (v : Word) : (c.putSeg r v).ip = c.ip := rfl
@[simp] theorem putSeg_flags (c : Cpu) (r : Sreg) (v : Word) : (c.putSeg r v).flags = c.flags := rfl
@[simp] theorem putSeg_halted (c : Cpu) (r : Sreg) (v : Word) : (c.putSeg r v).halted = c.halted := rfl
@[simp] theorem putSeg_inhibit (c : Cpu) (r : Sreg) (v : Word) : (c.putSeg r v).inhibit = c.inhibit := rfl
@[simp] theorem putSeg_nmiLatch (c : Cpu) (r : Sreg) (v : Word) : (c.putSeg r v).nmiLatch = c.nmiLatch := rfl
@[simp] theorem putSeg_nmiPrev (c : Cpu) (r : Sreg) (v : Word) : (c.putSeg r v).nmiPrev = c.nmiPrev := rfl
@[simp] theorem putSeg_tempTF (c : Cpu) (r : Sreg) (v : Word) : (c.putSeg r v).tempTF = c.tempTF := rfl
@[simp] theorem putSeg_trapPending (c : Cpu) (r : Sreg) (v : Word) : (c.putSeg r v).trapPending = c.trapPending := rfl
@[simp] theorem putSeg_repRun (c : Cpu) (r : Sreg) (v : Word) : (c.putSeg r v).repRun = c.repRun := rfl
@[simp] theorem putSeg_pfx (c : Cpu) (r : Sreg) (v : Word) : (c.putSeg r v).pfx = c.pfx := rfl
@[simp] theorem putSeg_f1 (c : Cpu) (r : Sreg) (v : Word) : (c.putSeg r v).f1 = c.f1 := rfl
@[simp] theorem putSeg_ipStart (c : Cpu) (r : Sreg) (v : Word) : (c.putSeg r v).ipStart = c.ipStart := rfl
@[simp] theorem putSeg_ipLastPfx (c : Cpu) (r : Sreg) (v : Word) : (c.putSeg r v).ipLastPfx = c.ipLastPfx := rfl

@[simp] theorem putFlags_regs (c : Cpu) (f : Flags) : (c.putFlags f).regs = c.regs := rfl
@[simp] theorem putFlags_written (c : Cpu) (f : Flags) : (c.putFlags f).written = c.written := rfl
@[simp] theorem putFlags_segs (c : Cpu) (f : Flags) : (c.putFlags f).segs = c.segs := rfl
@[simp] theorem putFlags_ip (c : Cpu) (f : Flags) : (c.putFlags f).ip = c.ip := rfl
@[simp] theorem putFlags_flags (c : Cpu) (f : Flags) : (c.putFlags f).flags = f := rfl
@[simp] theorem putFlags_halted (c : Cpu) (f : Flags) : (c.putFlags f).halted = c.halted := rfl
@[simp] theorem putFlags_inhibit (c : Cpu) (f : Flags) : (c.putFlags f).inhibit = c.inhibit := rfl
@[simp] theorem putFlags_nmiLatch (c : Cpu) (f : Flags) : (c.putFlags f).nmiLatch = c.nmiLatch := rfl
@[simp] theorem putFlags_nmiPrev (c : Cpu) (f : Flags) : (c.putFlags f).nmiPrev = c.nmiPrev := rfl
@[simp] theorem putFlags_tempTF (c : Cpu) (f : Flags) : (c.putFlags f).tempTF = c.tempTF := rfl
@[simp] theorem putFlags_trapPending (c : Cpu) (f : Flags) : (c.putFlags f).trapPending = c.trapPending := rfl
@[simp] theorem putFlags_repRun (c : Cpu) (f : Flags) : (c.putFlags f).repRun = c.repRun := rfl
@[simp] theorem putFlags_pfx (c : Cpu) (f : Flags) : (c.putFlags f).pfx = c.pfx := rfl
@[simp] theorem putFlags_f1 (c : Cpu) (f : Flags) : (c.putFlags f).f1 = c.f1 := rfl
@[simp] theorem putFlags_ipStart (c : Cpu) (f : Flags) : (c.putFlags f).ipStart = c.ipStart := rfl
@[simp] theorem putFlags_ipLastPfx (c : Cpu) (f : Flags) : (c.putFlags f).ipLastPfx = c.ipLastPfx := rfl

@[simp] theorem putIp_regs (c : Cpu) (v : Word) : (c.putIp v).regs = c.regs := rfl
@[simp] theorem putIp_written (c : Cpu) (v : Word) : (c.putIp v).written = c.written := rfl
@[simp] theorem putIp_segs (c : Cpu) (v : Word) : (c.putIp v).segs = c.segs := rfl
@[simp] theorem putIp_ip (c : Cpu) (v : Word) : (c.putIp v).ip = v := rfl
@[simp] theorem putIp_flags (c : Cpu) (v : Word) : (c.putIp v).flags = c.flags := rfl
@[simp] theorem putIp_halted (c : Cpu) (v : Word) : (c.putIp v).halted = c.halted := rfl
@[simp] theorem putIp_inhibit (c : Cpu) (v : Word) : (c.putIp v).inhibit = c.inhibit := rfl
@[simp] theorem putIp_nmiLatch (c : Cpu) (v : Word) : (c.putIp v).nmiLatch = c.nmiLatch := rfl
@[simp] theorem putIp_nmiPrev (c : Cpu) (v : Word) : (c.putIp v).nmiPrev = c.nmiPrev := rfl
@[simp] theorem putIp_tempTF (c : Cpu) (v : Word) : (c.putIp v).tempTF = c.tempTF := rfl
@[simp] theorem putIp_trapPending (c : Cpu) (v : Word) : (c.putIp v).trapPending = c.trapPending := rfl
@[simp] theorem putIp_repRun (c : Cpu) (v : Word) : (c.putIp v).repRun = c.repRun := rfl
@[simp] theorem putIp_pfx (c : Cpu) (v : Word) : (c.putIp v).pfx = c.pfx := rfl
@[simp] theorem putIp_f1 (c : Cpu) (v : Word) : (c.putIp v).f1 = c.f1 := rfl
@[simp] theorem putIp_ipStart (c : Cpu) (v : Word) : (c.putIp v).ipStart = c.ipStart := rfl
@[simp] theorem putIp_ipLastPfx (c : Cpu) (v : Word) : (c.putIp v).ipLastPfx = c.ipLastPfx := rfl

@[simp] theorem put16_put16_same (c : Cpu) (r : Reg16) (v w : Word) : (c.put16 r v).put16 r w = c.put16 r w := by
  cases r <;> rfl

theorem put16_putFlags (c : Cpu) (r : Reg16) (v : Word) (f : Flags) : (c.putFlags f).put16 r v = (c.put16 r v).putFlags f := rfl

@[simp] theorem putFlags_putFlags (c : Cpu) (f g : Flags) : (c.putFlags f).putFlags g = c.putFlags g := rfl

/-! Register files (10 R101 to R105). -/

@[simp] theorem RegFile.get_set_same {α : Type} (f : RegFile α) (r : Reg16) (v : α) : (f.set r v).get r = v := by
  cases r <;> rfl

@[simp] theorem RegFile.get_set_other {α : Type} (f : RegFile α) {r q : Reg16} (v : α) (h : q ≠ r) :
    (f.set r v).get q = f.get q := by
  cases r <;> cases q <;> first | rfl | exact absurd rfl h

theorem RegFile.get_set {α : Type} (f : RegFile α) (r q : Reg16) (v : α) :
    (f.set r v).get q = if q = r then v else f.get q := by
  by_cases h : q = r
  · subst h; simp
  · simp [h]

theorem RegFile.set_get {α : Type} (f : RegFile α) (r : Reg16) : f.set r (f.get r) = f := by
  cases r <;> rfl

@[simp] theorem SegFile.get_set_same (f : SegFile) (r : Sreg) (v : Word) : (f.set r v).get r = v := by
  cases r <;> rfl

@[simp] theorem SegFile.get_set_other (f : SegFile) {r q : Sreg} (v : Word) (h : q ≠ r) :
    (f.set r v).get q = f.get q := by
  cases r <;> cases q <;> first | rfl | exact absurd rfl h

/-- Two states with the same CPU read the same registers. -/
theorem reg16_of_cpu {s t : State} (h : t.cpu = s.cpu) (r : Reg16) : t.reg16 r = s.reg16 r := by
  simp only [State.reg16, h]

theorem reg8_of_cpu {s t : State} (h : t.cpu = s.cpu) (r : Reg8) : t.reg8 r = s.reg8 r := by
  simp only [State.reg8, State.reg16, h]

theorem seg_of_cpu {s t : State} (h : t.cpu = s.cpu) (r : Sreg) : t.seg r = s.seg r := by
  simp only [State.seg, h]

/-! Halves of a word (10 R103). -/

theorem mkWord_halves (w : Word) : mkWord (hiByte w) (loByte w) = w := by
  apply BitVec.eq_of_getLsbD_eq
  intro i hi
  simp only [mkWord, hiByte, loByte, BitVec.getLsbD_append, BitVec.getLsbD_extractLsb', BitVec.getLsbD_setWidth]
  by_cases h : i < 8
  · simp [h]
  · have e : 8 + (i - 8) = i := by omega
    have l : i - 8 < 8 := by omega
    simp [h, e, l]

@[simp] theorem loByte_mkWord (h l : Byte) : loByte (mkWord h l) = l := by
  apply BitVec.eq_of_getLsbD_eq
  intro i hi
  have k : i < 16 := by omega
  simp only [loByte, mkWord, BitVec.getLsbD_append, BitVec.getLsbD_setWidth]
  simp [hi]

@[simp] theorem hiByte_mkWord (h l : Byte) : hiByte (mkWord h l) = h := by
  apply BitVec.eq_of_getLsbD_eq
  intro i hi
  have e : 8 + i - 8 = i := by omega
  simp only [hiByte, mkWord, BitVec.getLsbD_append, BitVec.getLsbD_extractLsb', e]
  simp [hi]

end Sys2Proof.Machine
end

