-- ==== Sys2Proof/Laws/Memory.lean ====
section
/-! SUPPORT. Memory: read after write, the canonical form, and what a bus store leaves. -/

namespace Sys2Proof.Machine

/-! Reads. -/

theorem memGet_memCons (a : Nat) (v : Byte) (m : Memory) (b : Nat) (h : v = unlistedByte → memGet m b = memGet ((a, v) :: m) b) :
    memGet (memCons a v m) b = memGet ((a, v) :: m) b := by
  unfold memCons
  split
  · exact h ‹_›
  · rfl

theorem memGet_below (lo b : Nat) (m : Memory) (h : memWfFrom lo m = true) (hb : b < lo) : memGet m b = unlistedByte := by
  induction m generalizing lo with
  | nil => rfl
  | cons c m ih =>
    simp only [memWfFrom, Bool.and_eq_true, decide_eq_true_eq] at h
    have hc : c.1 ≠ b := by omega
    simp only [memGet, if_neg hc]
    exact ih (c.1 + 1) h.2 (by omega)

/-- Read after write: the value at the address, the old byte elsewhere. -/
theorem memGet_memSet_from (lo : Nat) (m : Memory) (h : memWfFrom lo m = true) (a : Nat) (v : Byte) (b : Nat) :
    memGet (memSet m a v) b = if b = a then v else memGet m b := by
  induction m generalizing lo with
  | nil =>
    by_cases hb : b = a
    · subst hb
      by_cases hv : v = unlistedByte
      · simp [memSet, memCons, hv, memGet]
      · simp [memSet, memCons, hv, memGet]
    · have hb' : ¬ a = b := fun e => hb e.symm
      by_cases hv : v = unlistedByte
      · simp [memSet, memCons, hv, memGet, hb]
      · simp [memSet, memCons, hv, memGet, hb, hb']
  | cons c m ih =>
    simp only [memWfFrom, Bool.and_eq_true, decide_eq_true_eq] at h
    unfold memSet
    split
    · rename_i hlt
      have hlow : memGet (c :: m) a = unlistedByte := by
        apply memGet_below c.1 _ _ _ hlt
        simp only [memWfFrom, Bool.and_eq_true, decide_eq_true_eq]
        exact ⟨⟨⟨Nat.le_refl _, h.1.1.2⟩, h.1.2⟩, h.2⟩
      rw [memGet_memCons]
      · by_cases hb : b = a
        · subst hb; simp [memGet]
        · have hb' : ¬ a = b := fun e => hb e.symm
          simp [memGet, hb, hb']
      · intro hv
        by_cases hb : a = b
        · subst hb; rw [hlow, hv]; simp [memGet]
        · simp [memGet, hb]
    · split
      · rename_i hnlt heq
        have hlow : memGet m a = unlistedByte := memGet_below (c.1 + 1) _ _ h.2 (by omega)
        rw [memGet_memCons]
        · by_cases hb : b = a
          · subst hb; simp [memGet]
          · have hb' : ¬ a = b := fun e => hb e.symm
            have hc : ¬ c.1 = b := by omega
            simp [memGet, hb, hb', hc]
        · intro hv
          by_cases hb : a = b
          · subst hb; rw [hlow, hv]; simp [memGet]
          · simp [memGet, hb]
      · rename_i hnlt hne
        by_cases hc : c.1 = b
        · have hb : ¬ b = a := by omega
          simp [memGet, hc, hb]
        · simp only [memGet, if_neg hc]
          exact ih (c.1 + 1) h.2

theorem memGet_memSet (m : Memory) (h : Memory.wf m = true) (a : Nat) (v : Byte) (b : Nat) :
    memGet (memSet m a v) b = if b = a then v else memGet m b := memGet_memSet_from 0 m h a v b

/-- A write leaves every other address alone, whatever form the memory has. -/
theorem memGet_memSet_other (m : Memory) (a : Nat) (v : Byte) (b : Nat) (h : b ≠ a) :
    memGet (memSet m a v) b = memGet m b := by
  have h' : ¬ a = b := fun e => h e.symm
  induction m with
  | nil => unfold memSet memCons; split <;> simp [memGet, h']
  | cons c m ih =>
    unfold memSet
    split
    · unfold memCons; split <;> simp [memGet, h']
    · split
      · rename_i heq
        have hc : ¬ c.1 = b := by omega
        unfold memCons; split <;> simp [memGet, h', hc]
      · simp only [memGet, ih]

/-! The canonical form. -/

theorem memWfFrom_weaken (lo lo' : Nat) (m : Memory) (h : memWfFrom lo m = true) (hl : lo' ≤ lo) : memWfFrom lo' m = true := by
  cases m with
  | nil => rfl
  | cons c m =>
    simp only [memWfFrom, Bool.and_eq_true, decide_eq_true_eq] at h ⊢
    exact ⟨⟨⟨by omega, h.1.1.2⟩, h.1.2⟩, h.2⟩

theorem memCons_wf (lo a : Nat) (v : Byte) (m : Memory) (h : memWfFrom (a + 1) m = true) (hl : lo ≤ a) (ha : a < 2 ^ 20) :
    memWfFrom lo (memCons a v m) = true := by
  unfold memCons
  split
  · exact memWfFrom_weaken _ _ _ h (by omega)
  · simp only [memWfFrom, Bool.and_eq_true, decide_eq_true_eq]
    exact ⟨⟨⟨hl, ha⟩, ‹_›⟩, h⟩

theorem memSet_wfFrom (lo : Nat) (m : Memory) (h : memWfFrom lo m = true) (a : Nat) (v : Byte) (hl : lo ≤ a) (ha : a < 2 ^ 20) :
    memWfFrom lo (memSet m a v) = true := by
  induction m generalizing lo with
  | nil => exact memCons_wf lo a v [] rfl hl ha
  | cons c m ih =>
    simp only [memWfFrom, Bool.and_eq_true, decide_eq_true_eq] at h
    unfold memSet
    split
    · apply memCons_wf lo a v (c :: m) _ hl ha
      simp only [memWfFrom, Bool.and_eq_true, decide_eq_true_eq]
      exact ⟨⟨⟨by omega, h.1.1.2⟩, h.1.2⟩, h.2⟩
    · split
      · rename_i heq
        exact memCons_wf lo a v m (by rw [heq]; exact h.2) hl ha
      · simp only [memWfFrom, Bool.and_eq_true, decide_eq_true_eq]
        exact ⟨⟨⟨h.1.1.1, h.1.1.2⟩, h.1.2⟩, ih (c.1 + 1) h.2 (by omega)⟩

/-- A write of a byte keeps the canonical form. -/
theorem memSet_wf (m : Memory) (h : Memory.wf m = true) (a : LinAddr) (v : Byte) : Memory.wf (memSet m a.toNat v) = true :=
  memSet_wfFrom 0 m h a.toNat v (Nat.zero_le _) a.isLt

/-! The bus (20 R212). -/

@[simp] theorem store_romRegions (b : Bus) (a : LinAddr) (v : Byte) : (b.store a v).romRegions = b.romRegions := by
  unfold Bus.store; split <;> rfl

@[simp] theorem store_mmioMap (b : Bus) (a : LinAddr) (v : Byte) : (b.store a v).mmioMap = b.mmioMap := by
  unfold Bus.store; split <;> rfl

@[simp] theorem store_convMemCap (b : Bus) (a : LinAddr) (v : Byte) : (b.store a v).convMemCap = b.convMemCap := by
  unfold Bus.store; split <;> rfl

@[simp] theorem store_isDevice (b : Bus) (a : LinAddr) (v : Byte) (x : LinAddr) : (b.store a v).isDevice x = b.isDevice x := by
  simp [Bus.isDevice, Bus.route]

@[simp] theorem store_writable (b : Bus) (a : LinAddr) (v : Byte) (x : LinAddr) : (b.store a v).writable x = b.writable x := by
  simp [Bus.writable, Bus.isRomGranule, Bus.romFlag, Bus.route]

/-- A store leaves every other byte alone. -/
theorem store_byte_other (b : Bus) (a : LinAddr) (v : Byte) (x : LinAddr) (h : x ≠ a) : (b.store a v).byte x = b.byte x := by
  unfold Bus.store
  split
  · exact memGet_memSet_other _ _ _ _ fun e => h (BitVec.eq_of_toNat_eq e)
  · rfl

/-- A store gives its byte where the address is writable, and is dropped elsewhere. -/
theorem store_byte_same (b : Bus) (hb : Memory.wf b.mem = true) (a : LinAddr) (v : Byte) :
    (b.store a v).byte a = if b.writable a then v else b.byte a := by
  unfold Bus.store
  split
  · simp [Bus.byte, memGet_memSet _ hb]
  · rfl

/-- An address no write reaches keeps its byte (20 R213). -/
theorem store_byte_fixed (b : Bus) (a : LinAddr) (v : Byte) (x : LinAddr) (h : b.writable x = false) :
    (b.store a v).byte x = b.byte x := by
  by_cases e : x = a
  · subst e; simp [Bus.store, h]
  · exact store_byte_other b a v x e

theorem store_wf (b : Bus) (h : Memory.wf b.mem = true) (a : LinAddr) (v : Byte) : Memory.wf (b.store a v).mem = true := by
  unfold Bus.store
  split
  · exact memSet_wf _ h a v
  · exact h

end Sys2Proof.Machine
end

