-- ==== Sys2Proof/Laws/Biu.lean ====
section
/-! SUPPORT. What the BIU's operations leave: a read, a fetch and a BIU turn change nothing but the BIU, the environment's
schedules, the history and the count of free values; a write changes the bus by one store. -/

namespace Sys2Proof.Machine

@[simp] theorem oracleRead_cpu (s : State) : ((oracleRead s).2).cpu = s.cpu := by
  unfold oracleRead; split <;> rfl

@[simp] theorem oracleRead_bus (s : State) : ((oracleRead s).2).bus = s.bus := by
  unfold oracleRead; split <;> rfl

@[simp] theorem oracleRead_dev (s : State) : ((oracleRead s).2).dev = s.dev := by
  unfold oracleRead; split <;> rfl

@[simp] theorem oracleRead_params (s : State) : ((oracleRead s).2).params = s.params := by
  unfold oracleRead; split <;> rfl

@[simp] theorem oracleRead_marks (s : State) : ((oracleRead s).2).marks = s.marks := by
  unfold oracleRead; split <;> rfl

@[simp] theorem oracleRead_biu (s : State) : (oracleRead s).2.biu = s.biu := by
  unfold oracleRead; split <;> rfl

@[simp] theorem dispatchRead_cpu (a : LinAddr) (s : State) : ((dispatchRead a s).2).cpu = s.cpu := by
  unfold dispatchRead; split <;> simp

@[simp] theorem dispatchRead_bus (a : LinAddr) (s : State) : ((dispatchRead a s).2).bus = s.bus := by
  unfold dispatchRead; split <;> simp

@[simp] theorem dispatchRead_dev (a : LinAddr) (s : State) : ((dispatchRead a s).2).dev = s.dev := by
  unfold dispatchRead; split <;> simp

@[simp] theorem dispatchRead_params (a : LinAddr) (s : State) : ((dispatchRead a s).2).params = s.params := by
  unfold dispatchRead; split <;> simp

@[simp] theorem dispatchRead_marks (a : LinAddr) (s : State) : ((dispatchRead a s).2).marks = s.marks := by
  unfold dispatchRead; split <;> simp

@[simp] theorem dispatchRead_biu (a : LinAddr) (s : State) : (dispatchRead a s).2.biu = s.biu := by
  unfold dispatchRead; split <;> simp

@[simp] theorem oracleWrite_cpu (s : State) : (oracleWrite s).2.cpu = s.cpu := by
  unfold oracleWrite; split <;> rfl

@[simp] theorem oracleWrite_biu (s : State) : (oracleWrite s).2.biu = s.biu := by
  unfold oracleWrite; split <;> rfl

@[simp] theorem oracleWrite_bus (s : State) : (oracleWrite s).2.bus = s.bus := by
  unfold oracleWrite; split <;> rfl

@[simp] theorem oracleWrite_dev (s : State) : (oracleWrite s).2.dev = s.dev := by
  unfold oracleWrite; split <;> rfl

@[simp] theorem oracleWrite_params (s : State) : (oracleWrite s).2.params = s.params := by
  unfold oracleWrite; split <;> rfl

@[simp] theorem oracleWrite_history (s : State) : (oracleWrite s).2.history = s.history := by
  unfold oracleWrite; split <;> rfl

@[simp] theorem oracleWrite_marks (s : State) : (oracleWrite s).2.marks = s.marks := by
  unfold oracleWrite; split <;> rfl

@[simp] theorem writeWaits_cpu (a : LinAddr) (s : State) : (writeWaits a s).2.cpu = s.cpu := by
  unfold writeWaits; split <;> simp

@[simp] theorem writeWaits_biu (a : LinAddr) (s : State) : (writeWaits a s).2.biu = s.biu := by
  unfold writeWaits; split <;> simp

@[simp] theorem writeWaits_bus (a : LinAddr) (s : State) : (writeWaits a s).2.bus = s.bus := by
  unfold writeWaits; split <;> simp

@[simp] theorem writeWaits_dev (a : LinAddr) (s : State) : (writeWaits a s).2.dev = s.dev := by
  unfold writeWaits; split <;> simp

@[simp] theorem writeWaits_params (a : LinAddr) (s : State) : (writeWaits a s).2.params = s.params := by
  unfold writeWaits; split <;> simp

@[simp] theorem writeWaits_history (a : LinAddr) (s : State) : (writeWaits a s).2.history = s.history := by
  unfold writeWaits; split <;> simp

@[simp] theorem writeWaits_marks (a : LinAddr) (s : State) : (writeWaits a s).2.marks = s.marks := by
  unfold writeWaits; split <;> simp

@[simp] theorem oracleRead_history (s : State) : (oracleRead s).2.history = s.history := by
  unfold oracleRead; split <;> rfl

@[simp] theorem dispatchRead_history (a : LinAddr) (s : State) : (dispatchRead a s).2.history = s.history := by
  unfold dispatchRead; split <;> simp

/-- A read outside the devices' granules gives the array byte (20 R210). -/
theorem dispatchRead_value (a : LinAddr) (s : State) (h : s.bus.isDevice a = false) :
    (dispatchRead a s).1.value = s.bus.byte a := by
  simp [dispatchRead, h]

@[simp] theorem fetchData_cpu (s : State) : (fetchData s).cpu = s.cpu := by
  simp [fetchData]

@[simp] theorem fetchData_bus (s : State) : (fetchData s).bus = s.bus := by
  simp [fetchData]

@[simp] theorem fetchData_dev (s : State) : (fetchData s).dev = s.dev := by
  simp [fetchData]

@[simp] theorem fetchData_params (s : State) : (fetchData s).params = s.params := by
  simp [fetchData]

@[simp] theorem fetchData_marks (s : State) : (fetchData s).marks = s.marks := by
  simp [fetchData]

@[simp] theorem clock_cpu (op : QueueOp) (v : Option Byte) (s : State) : (s.clock op v).cpu = s.cpu := by
  unfold State.clock; split <;> simp

@[simp] theorem clock_bus (op : QueueOp) (v : Option Byte) (s : State) : (s.clock op v).bus = s.bus := by
  unfold State.clock; split <;> simp

@[simp] theorem clock_dev (op : QueueOp) (v : Option Byte) (s : State) : (s.clock op v).dev = s.dev := by
  unfold State.clock; split <;> simp

@[simp] theorem clock_params (op : QueueOp) (v : Option Byte) (s : State) : (s.clock op v).params = s.params := by
  unfold State.clock; split <;> simp

@[simp] theorem clock_marks (op : QueueOp) (v : Option Byte) (s : State) : (s.clock op v).marks = s.marks := by
  unfold State.clock; split <;> simp

@[simp] theorem toData_cpu (s : State) : s.toData.cpu = s.cpu := by
  unfold State.toData; split <;> simp

@[simp] theorem toData_bus (s : State) : s.toData.bus = s.bus := by
  unfold State.toData; split <;> simp

@[simp] theorem toData_dev (s : State) : s.toData.dev = s.dev := by
  unfold State.toData; split <;> simp

@[simp] theorem toData_params (s : State) : s.toData.params = s.params := by
  unfold State.toData; split <;> simp

@[simp] theorem toData_marks (s : State) : s.toData.marks = s.marks := by
  unfold State.toData; split <;> simp

@[simp] theorem settle_cpu (s : State) : s.settle.cpu = s.cpu := by
  simp [State.settle]

@[simp] theorem settle_bus (s : State) : s.settle.bus = s.bus := by
  simp [State.settle]

@[simp] theorem settle_dev (s : State) : s.settle.dev = s.dev := by
  simp [State.settle]

@[simp] theorem settle_params (s : State) : s.settle.params = s.params := by
  simp [State.settle]

@[simp] theorem settle_marks (s : State) : s.settle.marks = s.marks := by
  simp [State.settle]

@[simp] theorem openCycle_cpu (s : State) (r : BusRequest) : (s.openCycle r).cpu = s.cpu := by
  simp [State.openCycle]

@[simp] theorem openCycle_bus (s : State) (r : BusRequest) : (s.openCycle r).bus = s.bus := by
  simp [State.openCycle]

@[simp] theorem openCycle_dev (s : State) (r : BusRequest) : (s.openCycle r).dev = s.dev := by
  simp [State.openCycle]

@[simp] theorem openCycle_params (s : State) (r : BusRequest) : (s.openCycle r).params = s.params := by
  simp [State.openCycle]

@[simp] theorem openCycle_marks (s : State) (r : BusRequest) : (s.openCycle r).marks = s.marks := by
  simp [State.openCycle]

@[simp] theorem beginCycle_cpu (s : State) (r : BusRequest) : (s.beginCycle r).cpu = s.cpu := by
  simp [State.beginCycle]

@[simp] theorem beginCycle_bus (s : State) (r : BusRequest) : (s.beginCycle r).bus = s.bus := by
  simp [State.beginCycle]

@[simp] theorem beginCycle_dev (s : State) (r : BusRequest) : (s.beginCycle r).dev = s.dev := by
  simp [State.beginCycle]

@[simp] theorem beginCycle_params (s : State) (r : BusRequest) : (s.beginCycle r).params = s.params := by
  simp [State.beginCycle]

@[simp] theorem beginCycle_marks (s : State) (r : BusRequest) : (s.beginCycle r).marks = s.marks := by
  simp [State.beginCycle]

@[simp] theorem euClock_cpu (s : State) (op : QueueOp) (v : Option Byte) : (euClock s op v).cpu = s.cpu := by
  unfold euClock; split <;> simp

@[simp] theorem euClock_bus (s : State) (op : QueueOp) (v : Option Byte) : (euClock s op v).bus = s.bus := by
  unfold euClock; split <;> simp

@[simp] theorem euClock_dev (s : State) (op : QueueOp) (v : Option Byte) : (euClock s op v).dev = s.dev := by
  unfold euClock; split <;> simp

@[simp] theorem euClock_params (s : State) (op : QueueOp) (v : Option Byte) : (euClock s op v).params = s.params := by
  unfold euClock; split <;> simp

@[simp] theorem euClock_marks (s : State) (op : QueueOp) (v : Option Byte) : (euClock s op v).marks = s.marks := by
  unfold euClock; split <;> simp

@[simp] theorem takeByte_cpu (op : QueueOp) (s : State) : (takeByte op s).cpu = s.cpu := by
  simp [takeByte]

@[simp] theorem takeByte_bus (op : QueueOp) (s : State) : (takeByte op s).bus = s.bus := by
  simp [takeByte]

@[simp] theorem takeByte_dev (op : QueueOp) (s : State) : (takeByte op s).dev = s.dev := by
  simp [takeByte]

@[simp] theorem takeByte_params (op : QueueOp) (s : State) : (takeByte op s).params = s.params := by
  simp [takeByte]

@[simp] theorem takeByte_marks (op : QueueOp) (s : State) : (takeByte op s).marks = s.marks := by
  simp [takeByte]

@[simp] theorem flushQueue_cpu (s : State) : (flushQueue s).cpu = s.cpu := by
  simp [flushQueue]

@[simp] theorem flushQueue_bus (s : State) : (flushQueue s).bus = s.bus := by
  simp [flushQueue]

@[simp] theorem flushQueue_dev (s : State) : (flushQueue s).dev = s.dev := by
  simp [flushQueue]

@[simp] theorem flushQueue_params (s : State) : (flushQueue s).params = s.params := by
  simp [flushQueue]

@[simp] theorem flushQueue_marks (s : State) : (flushQueue s).marks = s.marks := by
  simp [flushQueue]

@[simp] theorem euClocks_cpu (n : Nat) (s : State) : (euClocks n s).cpu = s.cpu := by
  induction n generalizing s with
  | zero => rfl
  | succ n ih => simp [euClocks, ih]

@[simp] theorem euClocks_bus (n : Nat) (s : State) : (euClocks n s).bus = s.bus := by
  induction n generalizing s with
  | zero => rfl
  | succ n ih => simp [euClocks, ih]

@[simp] theorem euClocks_dev (n : Nat) (s : State) : (euClocks n s).dev = s.dev := by
  induction n generalizing s with
  | zero => rfl
  | succ n ih => simp [euClocks, ih]

@[simp] theorem euClocks_params (n : Nat) (s : State) : (euClocks n s).params = s.params := by
  induction n generalizing s with
  | zero => rfl
  | succ n ih => simp [euClocks, ih]

@[simp] theorem euClocks_marks (n : Nat) (s : State) : (euClocks n s).marks = s.marks := by
  induction n generalizing s with
  | zero => rfl
  | succ n ih => simp [euClocks, ih]

@[simp] theorem takeEuClocks_cpu (s : State) : (takeEuClocks s).2.cpu = s.cpu := by
  unfold takeEuClocks; split <;> rfl

@[simp] theorem takeEuClocks_bus (s : State) : (takeEuClocks s).2.bus = s.bus := by
  unfold takeEuClocks; split <;> rfl

@[simp] theorem takeEuClocks_dev (s : State) : (takeEuClocks s).2.dev = s.dev := by
  unfold takeEuClocks; split <;> rfl

@[simp] theorem takeEuClocks_params (s : State) : (takeEuClocks s).2.params = s.params := by
  unfold takeEuClocks; split <;> rfl

@[simp] theorem takeEuClocks_marks (s : State) : (takeEuClocks s).2.marks = s.marks := by
  unfold takeEuClocks; split <;> rfl

@[simp] theorem takeEuClocks_biu (s : State) : (takeEuClocks s).2.biu = s.biu := by
  unfold takeEuClocks; split <;> rfl

@[simp] theorem biuTurn_cpu (s : State) : (biuTurn s).cpu = s.cpu := by
  simp [biuTurn]

@[simp] theorem biuTurn_bus (s : State) : (biuTurn s).bus = s.bus := by
  simp [biuTurn]

@[simp] theorem biuTurn_dev (s : State) : (biuTurn s).dev = s.dev := by
  simp [biuTurn]

@[simp] theorem biuTurn_params (s : State) : (biuTurn s).params = s.params := by
  simp [biuTurn]

@[simp] theorem biuTurn_marks (s : State) : (biuTurn s).marks = s.marks := by
  simp [biuTurn]

@[simp] theorem awaitByte_cpu (s : State) : (awaitByte s).cpu = s.cpu := by
  unfold awaitByte; split <;> simp

@[simp] theorem awaitByte_bus (s : State) : (awaitByte s).bus = s.bus := by
  unfold awaitByte; split <;> simp

@[simp] theorem awaitByte_dev (s : State) : (awaitByte s).dev = s.dev := by
  unfold awaitByte; split <;> simp

@[simp] theorem awaitByte_params (s : State) : (awaitByte s).params = s.params := by
  unfold awaitByte; split <;> simp

@[simp] theorem awaitByte_marks (s : State) : (awaitByte s).marks = s.marks := by
  unfold awaitByte; split <;> simp

@[simp] theorem memRead_cpu (access : AccessType) (a : LinAddr) (s : State) : ((memRead access a s).2).cpu = s.cpu := by
  simp [memRead]

@[simp] theorem memRead_bus (access : AccessType) (a : LinAddr) (s : State) : ((memRead access a s).2).bus = s.bus := by
  simp [memRead]

@[simp] theorem memRead_dev (access : AccessType) (a : LinAddr) (s : State) : ((memRead access a s).2).dev = s.dev := by
  simp [memRead]

@[simp] theorem memRead_params (access : AccessType) (a : LinAddr) (s : State) : ((memRead access a s).2).params = s.params := by
  simp [memRead]

@[simp] theorem memRead_marks (access : AccessType) (a : LinAddr) (s : State) : ((memRead access a s).2).marks = s.marks := by
  simp [memRead]

@[simp] theorem readByteAt_cpu (access : AccessType) (base off : Word) (s : State) : ((readByteAt access base off s).2).cpu = s.cpu := by
  simp [readByteAt]

@[simp] theorem readByteAt_bus (access : AccessType) (base off : Word) (s : State) : ((readByteAt access base off s).2).bus = s.bus := by
  simp [readByteAt]

@[simp] theorem readByteAt_dev (access : AccessType) (base off : Word) (s : State) : ((readByteAt access base off s).2).dev = s.dev := by
  simp [readByteAt]

@[simp] theorem readByteAt_params (access : AccessType) (base off : Word) (s : State) : ((readByteAt access base off s).2).params = s.params := by
  simp [readByteAt]

@[simp] theorem readByteAt_marks (access : AccessType) (base off : Word) (s : State) : ((readByteAt access base off s).2).marks = s.marks := by
  simp [readByteAt]

@[simp] theorem readWordAt_cpu (access : AccessType) (base off : Word) (s : State) : ((readWordAt access base off s).2).cpu = s.cpu := by
  simp [readWordAt]

@[simp] theorem readWordAt_bus (access : AccessType) (base off : Word) (s : State) : ((readWordAt access base off s).2).bus = s.bus := by
  simp [readWordAt]

@[simp] theorem readWordAt_dev (access : AccessType) (base off : Word) (s : State) : ((readWordAt access base off s).2).dev = s.dev := by
  simp [readWordAt]

@[simp] theorem readWordAt_params (access : AccessType) (base off : Word) (s : State) : ((readWordAt access base off s).2).params = s.params := by
  simp [readWordAt]

@[simp] theorem readWordAt_marks (access : AccessType) (base off : Word) (s : State) : ((readWordAt access base off s).2).marks = s.marks := by
  simp [readWordAt]

/-- The byte read at an offset of a segment base, outside the devices' granules (00 R12). -/
theorem readByteAt_value (access : AccessType) (base off : Word) (s : State) (h : s.bus.isDevice (lin base off) = false) :
    (readByteAt access base off s).1 = s.bus.byte (lin base off) := by
  simp only [readByteAt, memRead]
  rw [dispatchRead_value _ _ (by simpa using h)]
  simp

/-- The word read: low byte at the offset, high byte at the next offset of the segment (20 R220). -/
theorem readWordAt_value (access : AccessType) (base off : Word) (s : State) (h : s.bus.isDevice (lin base off) = false)
    (h' : s.bus.isDevice (lin base (off + 1)) = false) :
    (readWordAt access base off s).1 = mkWord (s.bus.byte (lin base (off + 1))) (s.bus.byte (lin base off)) := by
  have k : (readByteAt access base off s).2.bus.isDevice (lin base (off + 1)) = false := by simpa using h'
  simp only [readWordAt, readByteAt_value _ _ _ _ h, readByteAt_value _ _ _ _ k, readByteAt_bus]

@[simp] theorem dataWrite_cpu (access : AccessType) (a : LinAddr) (v : Byte) (op : QueueOp) (s : State) :
    (dataWrite access a v op s).cpu = s.cpu := by
  simp [dataWrite]

@[simp] theorem dataWrite_dev (access : AccessType) (a : LinAddr) (v : Byte) (op : QueueOp) (s : State) :
    (dataWrite access a v op s).dev = s.dev := by
  simp [dataWrite]

@[simp] theorem dataWrite_params (access : AccessType) (a : LinAddr) (v : Byte) (op : QueueOp) (s : State) :
    (dataWrite access a v op s).params = s.params := by
  simp [dataWrite]

@[simp] theorem dataWrite_marks (access : AccessType) (a : LinAddr) (v : Byte) (op : QueueOp) (s : State) :
    (dataWrite access a v op s).marks = s.marks := by
  simp [dataWrite]

@[simp] theorem dataWrite_bus (access : AccessType) (a : LinAddr) (v : Byte) (op : QueueOp) (s : State) :
    (dataWrite access a v op s).bus = s.bus.store a v := by
  simp [dataWrite]

/-- The data phase of a write moves the cycle record only. -/
@[simp] theorem dataWrite_biu (access : AccessType) (a : LinAddr) (v : Byte) (op : QueueOp) (s : State) :
    (dataWrite access a v op s).biu =
      { s.biu with cycle := { dataPhase none (writeWaits a s).1 s.biu.cycle with queueOp := op } } := by
  simp [dataWrite]

@[simp] theorem dataWrite_history (access : AccessType) (a : LinAddr) (v : Byte) (op : QueueOp) (s : State) :
    (dataWrite access a v op s).history = .memWrite access a v :: s.history := by
  simp [dataWrite]

@[simp] theorem memWrite_cpu (access : AccessType) (a : LinAddr) (v : Byte) (s : State) : (memWrite access a v s).cpu = s.cpu := by
  simp [memWrite, carryWrite, beginWrite]

@[simp] theorem memWrite_dev (access : AccessType) (a : LinAddr) (v : Byte) (s : State) : (memWrite access a v s).dev = s.dev := by
  simp [memWrite, carryWrite, beginWrite]

@[simp] theorem memWrite_params (access : AccessType) (a : LinAddr) (v : Byte) (s : State) : (memWrite access a v s).params = s.params := by
  simp [memWrite, carryWrite, beginWrite]

@[simp] theorem memWrite_marks (access : AccessType) (a : LinAddr) (v : Byte) (s : State) : (memWrite access a v s).marks = s.marks := by
  simp [memWrite, carryWrite, beginWrite]

@[simp] theorem writeByteAt_cpu (access : AccessType) (base off : Word) (v : Byte) (s : State) : (writeByteAt access base off v s).cpu = s.cpu := by
  simp [writeByteAt]

@[simp] theorem writeByteAt_dev (access : AccessType) (base off : Word) (v : Byte) (s : State) : (writeByteAt access base off v s).dev = s.dev := by
  simp [writeByteAt]

@[simp] theorem writeByteAt_params (access : AccessType) (base off : Word) (v : Byte) (s : State) : (writeByteAt access base off v s).params = s.params := by
  simp [writeByteAt]

@[simp] theorem writeByteAt_marks (access : AccessType) (base off : Word) (v : Byte) (s : State) : (writeByteAt access base off v s).marks = s.marks := by
  simp [writeByteAt]

@[simp] theorem writeWordAt_cpu (access : AccessType) (base off : Word) (v : Word) (s : State) : (writeWordAt access base off v s).cpu = s.cpu := by
  simp [writeWordAt]

@[simp] theorem writeWordAt_dev (access : AccessType) (base off : Word) (v : Word) (s : State) : (writeWordAt access base off v s).dev = s.dev := by
  simp [writeWordAt]

@[simp] theorem writeWordAt_params (access : AccessType) (base off : Word) (v : Word) (s : State) : (writeWordAt access base off v s).params = s.params := by
  simp [writeWordAt]

@[simp] theorem writeWordAt_marks (access : AccessType) (base off : Word) (v : Word) (s : State) : (writeWordAt access base off v s).marks = s.marks := by
  simp [writeWordAt]

@[simp] theorem memWrite_bus (access : AccessType) (a : LinAddr) (v : Byte) (s : State) :
    (memWrite access a v s).bus = s.bus.store a v := by
  simp [memWrite, carryWrite, beginWrite]

@[simp] theorem writeByteAt_bus (access : AccessType) (base off : Word) (v : Byte) (s : State) :
    (writeByteAt access base off v s).bus = s.bus.store (lin base off) v := by
  simp [writeByteAt]

@[simp] theorem writeWordAt_bus (access : AccessType) (base off : Word) (v : Word) (s : State) :
    (writeWordAt access base off v s).bus = (s.bus.store (lin base off) (loByte v)).store (lin base (off + 1)) (hiByte v) := by
  simp [writeWordAt]

/-! The history (20 R241): accesses append to it. -/

/-- A code fetch is recorded in its data phase (21 R302, R331). -/
theorem fetchData_history (s : State) : (fetchData s).history =
    .codeFetch s.biu.cycle.addr (dispatchRead s.biu.cycle.addr s).1.value :: s.history := by
  simp [fetchData]

theorem clock_history (op : QueueOp) (v : Option Byte) (s : State) : s.history <:+ (s.clock op v).history := by
  unfold State.clock
  split
  · rw [mapBiu_history, fetchData_history]; exact List.suffix_cons _ _
  · exact List.suffix_refl _

theorem toData_history (s : State) : s.history <:+ s.toData.history := by
  unfold State.toData
  split
  · exact (clock_history ..).trans (clock_history ..)
  · exact clock_history ..
  all_goals exact List.suffix_refl _

theorem settle_history (s : State) : s.history <:+ s.settle.history := toData_history s

theorem openCycle_history (r : BusRequest) (s : State) : s.history <:+ (s.openCycle r).history := settle_history s

theorem flushQueue_history (s : State) : s.history <:+ (flushQueue s).history := clock_history .flush none s

theorem euClock_history (s : State) (op : QueueOp) (v : Option Byte) : s.history <:+ (euClock s op v).history := by
  unfold euClock
  split
  · exact List.suffix_refl _
  · exact clock_history ..

theorem takeByte_history (op : QueueOp) (s : State) : s.history <:+ (takeByte op s).history :=
  euClock_history (s.mapBiu fun b => { b with queue := b.queue.drop 1 }) op (s.biu.queue.head?.map QueueByte.byte)

theorem euClocks_history (n : Nat) (s : State) : s.history <:+ (euClocks n s).history := by
  induction n generalizing s with
  | zero => exact List.suffix_refl _
  | succ n ih => exact (euClock_history s .idle none).trans (ih (euClock s))

theorem takeEuClocks_history (s : State) : (takeEuClocks s).2.history = s.history := by
  unfold takeEuClocks; split <;> rfl

/-- A BIU turn only appends to the history. -/
theorem biuTurn_history (s : State) : s.history <:+ (biuTurn s).history := by
  rw [← takeEuClocks_history s]
  exact euClocks_history _ _

theorem awaitByte_history (s : State) : s.history <:+ (awaitByte s).history := by
  unfold awaitByte
  split
  · exact (settle_history s).trans (settle_history (startFetch s.settle))
  · exact settle_history s

theorem memRead_history (access : AccessType) (a : LinAddr) (s : State) : (memRead access a s).2.history =
    .memRead access a (memRead access a s).1 :: (s.openCycle { kind := .memRead, access := access, addr := a, data := none }).history := by
  simp [memRead]

theorem beginCycle_history (r : BusRequest) (s : State) : s.history <:+ (s.beginCycle r).history := settle_history s

/-- The clocks after a write's T1 only append to the history, where its data phase does. -/
theorem carryWrite_history {data : QueueOp → State → State} (h : ∀ u, u.history <:+ (data .idle u).history) (s : State) :
    s.history <:+ (carryWrite data s).history := by
  rw [← takeEuClocks_history s]
  exact (clock_history _ _ _).trans ((h _).trans (euClocks_history _ _))

theorem memWrite_history (access : AccessType) (a : LinAddr) (v : Byte) (s : State) :
    s.history <:+ (memWrite access a v s).history :=
  (beginCycle_history _ s).trans (carryWrite_history (fun u => by rw [dataWrite_history]; exact List.suffix_cons _ _) _)

theorem readByteAt_history (access : AccessType) (base off : Word) (s : State) :
    s.history <:+ (readByteAt access base off s).2.history := by
  simp only [readByteAt]
  exact (biuTurn_history s).trans (.trans (by rw [memRead_history]; exact (openCycle_history _ _).trans (List.suffix_cons _ _)) (biuTurn_history _))

theorem readWordAt_history (access : AccessType) (base off : Word) (s : State) :
    s.history <:+ (readWordAt access base off s).2.history := by
  simp only [readWordAt]
  exact (readByteAt_history access base off s).trans (readByteAt_history access base (off + 1) _)

theorem writeByteAt_history (access : AccessType) (base off : Word) (v : Byte) (s : State) :
    s.history <:+ (writeByteAt access base off v s).history := by
  simp only [writeByteAt]
  exact (biuTurn_history s).trans (memWrite_history _ _ _ _)

theorem writeWordAt_history (access : AccessType) (base off v : Word) (s : State) :
    s.history <:+ (writeWordAt access base off v s).history := by
  simp only [writeWordAt]
  exact (writeByteAt_history access base off (loByte v) s).trans (writeByteAt_history access base (off + 1) (hiByte v) _)

/-! The T-state machine (21 R301 to R303, R308). -/

theorem ticks_succ (n : Nat) (c : BusCycle) : ticks (n + 1) c = ticks n (tick c) := rfl

/-- The data phase of a cycle from T3 or a wait state on: its waits, then T4 with the byte of a read captured (21 R302,
R303). -/
theorem ticks_data (n : Nat) (c : BusCycle) (h : c.tstate = .t3 ∨ c.tstate = .tw) (k : c.waits = n) : ticks (n + 1) c =
    { c with tstate := .t4, data := c.incoming.getD c.data, incoming := none, waits := 0, clock := c.clock + (n + 1)
             queueOp := .idle, queueByte := none } := by
  induction n generalizing c with
  | zero => rcases h with h | h <;> simp [ticks, tick, waitOrEnd, h, k]
  | succ n ih =>
    have e : tick c = { c with tstate := .tw, waits := n, clock := c.clock + 1, queueOp := .idle, queueByte := none } := by
      rcases h with h | h <;> simp [tick, waitOrEnd, h, k]
    rw [ticks_succ, e, ih _ (.inr rfl) rfl]
    simp only [BusCycle.mk.injEq, true_and, and_true]
    omega

/-- The cycle in progress run on: a new one may start (21 R308). -/
theorem finishCycle_free (c : BusCycle) : (finishCycle c).tstate = .ti ∨ (finishCycle c).tstate = .t4 := by
  unfold finishCycle
  cases h : c.tstate <;> simp only [clocksToT4, h]
  case ti => exact .inl h
  case t4 => exact .inr h
  case t1 =>
    rw [show 3 + c.waits = c.waits + 1 + 1 + 1 by omega, ticks_succ, ticks_succ,
      ticks_data c.waits _ (.inl (by simp [tick, h])) (by simp [tick, h])]
    exact .inr rfl
  case t2 =>
    rw [show 2 + c.waits = c.waits + 1 + 1 by omega, ticks_succ, ticks_data c.waits _ (.inl (by simp [tick, h])) (by simp [tick, h])]
    exact .inr rfl
  case t3 => rw [Nat.add_comm, ticks_data c.waits c (.inl h) rfl]; exact .inr rfl
  case tw => rw [Nat.add_comm, ticks_data c.waits c (.inr h) rfl]; exact .inr rfl

/-- Two clocks after a request on a free bus the cycle stands in T2 (21 R301, R308). -/
theorem openCycle_eq (r : BusRequest) (c : BusCycle) (h : c.tstate = .ti ∨ c.tstate = .t4) : openCycle r c =
    { startCycle r c with tstate := .t2, clock := c.clock + 2, queueOp := .idle, queueByte := none } := by
  rcases h with h | h <;> simp [openCycle, beginCycle, tick, h, nextCycle, startCycle]

/-- A whole cycle of the EU on a free bus: 4 clocks and the wait states, into T4 (21 R301 to R303). -/
theorem heldCycle_eq (r : BusRequest) (v : Option Byte) (n : Nat) (c : BusCycle) (h : c.tstate = .ti ∨ c.tstate = .t4) :
    finishCycle (dataPhase v n (openCycle r c)) =
      { startCycle r c with tstate := .t4, data := v.getD (r.data.getD c.data), clock := c.clock + (4 + n), queueOp := .idle
                            queueByte := none } := by
  rw [openCycle_eq r c h]
  simp only [dataPhase, tick, startCycle, finishCycle, clocksToT4]
  rw [Nat.add_comm 1 n, ticks_data n _ (.inl rfl) rfl]
  simp only [BusCycle.mk.injEq, true_and, and_true]
  omega

/-- A write started stands in T1, with its address and byte on the bus (21 R302, R309). -/
theorem beginWrite_t1 (access : AccessType) (a : LinAddr) (v : Byte) (s : State) :
    let c := (beginWrite access a v s).biu.cycle
    c.tstate = .t1 ∧ c.busState = .memWrite ∧ c.access = access ∧ c.addr = a ∧ c.data = v ∧
      c.clock = s.settle.biu.cycle.clock + 1 := by
  have h := finishCycle_free s.toData.biu.cycle
  simp only [beginWrite, State.beginCycle, beginCycle, mapBiu_biu, State.settle, land_cycle]
  rcases h with h | h <;> simp [tick, h, nextCycle, startCycle]

/-! The queue (21 R320 to R327, R330). -/

/-- The queue invariants of a state (21 R320, R322). -/
def QueueOk (s : State) : Prop := QueueBounded s ∧ QueueAligned s

theorem queueFrom_append (base : Word) (a : LinAddr) (as : List LinAddr) (off : Word) :
    queueFrom base off (as ++ [a]) ↔ queueFrom base off as ∧ a = lin base (off + BitVec.ofNat 16 as.length) := by
  induction as generalizing off with
  | nil => simp [queueFrom]
  | cons p as ih =>
    have e : off + 1 + BitVec.ofNat 16 as.length = off + BitVec.ofNat 16 (as.length + 1) := by
      rw [BitVec.add_assoc]; congr 1
      apply BitVec.eq_of_toNat_eq; simp [BitVec.toNat_ofNat]; omega
    simp only [List.cons_append, queueFrom, ih, List.length_cons, e, and_assoc]

/-- The queue invariants speak of CS, IP and the BIU only. -/
theorem queueOk_congr {s t : State} (hip : t.cpu.ip = s.cpu.ip) (hcs : t.cpu.segs.cs = s.cpu.segs.cs) (hb : t.biu = s.biu)
    (h : QueueOk s) : QueueOk t := by
  simpa only [QueueOk, QueueBounded, QueueAligned, hip, hcs, hb] using h

/-- They hold of a cycle that carries the code fetch in progress on. -/
theorem queueOk_carry {s t : State} (hip : t.cpu.ip = s.cpu.ip) (hcs : t.cpu.segs.cs = s.cpu.segs.cs)
    (hq : t.biu.queue = s.biu.queue) (hf : t.biu.fetching = s.biu.fetching) (hp : t.biu.pfp = s.biu.pfp)
    (hc : FetchOnBus s.biu → FetchOnBus t.biu) (h : QueueOk s) : QueueOk t := by
  have e : t.biu.coming = s.biu.coming := by simp [Biu.coming, hq, hf]
  obtain ⟨hb, ha, hl, hd⟩ := h
  exact ⟨by rw [QueueBounded, e]; exact hb, by rw [hp, hq, hip]; exact ha, by rw [hcs, hip, e]; exact hl, hc hd⟩

/-- No code fetch is in progress: the cycle is of no concern to the queue. -/
theorem fetchOnBus_none {b : Biu} (h : b.fetching = none) : FetchOnBus b := by
  intro a ha; rw [h] at ha; cases ha

/-- A code fetch that ends keeps the queue invariants (21 R321). -/
theorem queueOk_land {s t : State} (hip : t.cpu.ip = s.cpu.ip) (hcs : t.cpu.segs.cs = s.cpu.segs.cs) {v : Byte}
    (hq : t.biu.queue = s.biu.queue ++ (s.biu.fetching.map fun a => QueueByte.mk v a).toList) (hf : t.biu.fetching = none)
    (hp : t.biu.pfp = s.biu.land.pfp) (h : QueueOk s) : QueueOk t := by
  obtain ⟨hb, ha, hc, _⟩ := h
  have e : t.biu.coming = s.biu.coming := by
    cases hs : s.biu.fetching <;> simp [Biu.coming, hq, hf, hs]
  refine ⟨by rw [QueueBounded, e]; exact hb, ?_, by rw [hcs, hip, e]; exact hc, fetchOnBus_none hf⟩
  rw [hp, hq, hip, land_pfp, ha, List.length_append, BitVec.add_assoc]
  congr 1
  apply BitVec.eq_of_toNat_eq; cases s.biu.fetching <;> simp [BitVec.toNat_ofNat]

/-- One clock of the T-state machine with the queue behind it (21 R302, R309). -/
theorem clock_cases (op : QueueOp) (v : Option Byte) (b : Biu) :
    ((tick b.cycle).tstate ≠ .t4 ∧ b.clock op v = { b with cycle := tickWith op v b.cycle }) ∨
      ((tick b.cycle).tstate = .t4 ∧ b.clock op v = Biu.land { b with cycle := tickWith op v b.cycle }) := by
  unfold Biu.clock
  dsimp only
  split
  · rename_i h; exact .inr ⟨h, rfl⟩
  · rename_i h; exact .inl ⟨h, rfl⟩

/-- A code fetch in progress is carried on by a clock, out of T2 with its byte on the bus. -/
theorem fetchOnBus_tick {b : Biu} (op : QueueOp) (v : Option Byte) (h : FetchOnBus b) (hd : b.cycle.fetchAtT2 = false)
    (ht : (tick b.cycle).tstate ≠ .t4) : FetchOnBus { b with cycle := tickWith op v b.cycle } := by
  intro a ha
  obtain ⟨hs, haddr, hc⟩ := h a ha
  rcases hc with ⟨h1 | h2, hi⟩ | ⟨h3 | h4, hi⟩
  · simp [tickWith, tick, h1, hs, haddr, hi]
  · simp [BusCycle.fetchAtT2, h2, hs] at hd
  · simp only [tick, waitOrEnd, h3] at ht
    simp only [tickWith, tick, h3, waitOrEnd]
    split at ht
    · exact absurd rfl ht
    · rename_i hw; simp [hw, hs, haddr, hi]
  · simp only [tick, waitOrEnd, h4] at ht
    simp only [tickWith, tick, h4, waitOrEnd]
    split at ht
    · exact absurd rfl ht
    · rename_i hw; simp [hw, hs, haddr, hi]

/-- Out of T2, with the byte that the data phase has read. -/
theorem fetchOnBus_data {b : Biu} {w : Nat} {x : Byte} (op : QueueOp) (v : Option Byte) (h : FetchOnBus b)
    (hd : b.cycle.fetchAtT2 = true) :
    FetchOnBus { b with cycle := tickWith op v { b.cycle with incoming := some x, waits := w } } := by
  intro a ha
  obtain ⟨hs, haddr, _⟩ := h a ha
  simp only [BusCycle.fetchAtT2, Bool.and_eq_true, beq_iff_eq] at hd
  simp [tickWith, tick, hd.1, hs, haddr]

@[simp] theorem fetchData_biu (s : State) : (fetchData s).biu =
    { s.biu with cycle := { s.biu.cycle with
      incoming := some (dispatchRead s.biu.cycle.addr s).1.value, waits := (dispatchRead s.biu.cycle.addr s).1.waits } } := by
  simp [fetchData]

/-- A clock out of T1 (21 R301). -/
theorem clock_t1 (op : QueueOp) (v : Option Byte) (s : State) (h : s.biu.cycle.tstate = .t1) : s.clock op v =
    s.mapBiu fun b => { b with cycle := { b.cycle with
      tstate := .t2, clock := b.cycle.clock + 1, queueOp := op, queueByte := v } } := by
  simp [State.clock, State.mapBiu, BusCycle.fetchAtT2, h, Biu.clock, tickWith, tick]

/-- A clock out of T2 leads to T3 (21 R301). -/
theorem clock_t2 (op : QueueOp) (v : Option Byte) (s : State) (h : s.biu.cycle.tstate = .t2) :
    (s.clock op v).biu.cycle.tstate = .t3 := by
  unfold State.clock
  split <;> simp [h, Biu.clock, tickWith, tick]

/-- All that a clock can do to the BIU: the cycle goes on, with a code fetch in progress carried on, or ended and queued. -/
theorem clock_does (op : QueueOp) (v : Option Byte) (s : State) : ∃ c : BusCycle, c.queueOp = op ∧
    (((s.clock op v).biu = { s.biu with cycle := c } ∧ (FetchOnBus s.biu → FetchOnBus { s.biu with cycle := c })) ∨
      (s.clock op v).biu = Biu.land { s.biu with cycle := c }) := by
  unfold State.clock
  split
  · rename_i hd
    have ht : (tick (fetchData s).biu.cycle).tstate ≠ .t4 := by
      simp only [BusCycle.fetchAtT2, Bool.and_eq_true, beq_iff_eq] at hd
      simp [tick, hd.1]
    rcases clock_cases op v (fetchData s).biu with ⟨_, e⟩ | ⟨k, _⟩
    · rw [mapBiu_biu, e, fetchData_biu]
      exact ⟨_, rfl, .inl ⟨rfl, fun k => fetchOnBus_data op v k hd⟩⟩
    · exact absurd k ht
  · rename_i hd
    rw [mapBiu_biu]
    rcases clock_cases op v s.biu with ⟨ht, e⟩ | ⟨_, e⟩
    · exact ⟨_, rfl, .inl ⟨e, fun k => fetchOnBus_tick op v k (by simpa using hd) ht⟩⟩
    · exact ⟨_, rfl, .inr e⟩

/-- A clock neither takes nor loses a byte fetched. -/
@[simp] theorem clock_coming (op : QueueOp) (v : Option Byte) (s : State) : (s.clock op v).biu.coming = s.biu.coming := by
  obtain ⟨c, _, ⟨e, _⟩ | e⟩ := clock_does op v s
  · rw [e]; rfl
  · cases h : s.biu.fetching <;> simp [e, Biu.coming, h]

/-- A clock of a state with the same BIU keeps the queue invariants. -/
theorem queueOk_clock {op : QueueOp} {v : Option Byte} {s t u : State} (hip : t.cpu.ip = s.cpu.ip)
    (hcs : t.cpu.segs.cs = s.cpu.segs.cs) (hu : u.biu = s.biu) (hb : t.biu = (u.clock op v).biu) (h : QueueOk s) :
    QueueOk t := by
  obtain ⟨c, _, ⟨e, k⟩ | e⟩ := clock_does op v u
  · rw [hu] at e k
    exact queueOk_carry (s := s) hip hcs (by rw [hb, e]) (by rw [hb, e]) (by rw [hb, e]) (fun f => by rw [hb, e]; exact k f) h
  · rw [hu] at e
    exact queueOk_land (s := s) hip hcs (by rw [hb, e, land_queue]) (by rw [hb, e]; rfl) (by rw [hb, e]; rfl) h

theorem clock_queueOk (op : QueueOp) (v : Option Byte) (s : State) (h : QueueOk s) : QueueOk (s.clock op v) :=
  queueOk_clock (s := s) (by simp) (by simp) rfl rfl h

@[simp] theorem flushQueue_queue (s : State) : (flushQueue s).biu.queue = [] := rfl

@[simp] theorem flushQueue_fetching (s : State) : (flushQueue s).biu.fetching = none := rfl

@[simp] theorem flushQueue_pfp (s : State) : (flushQueue s).biu.pfp = s.cpu.ip := rfl

/-- A flush shows in the record of its clock (21 R324). -/
@[simp] theorem flushQueue_queueOp (s : State) : (flushQueue s).biu.cycle.queueOp = .flush := by
  obtain ⟨c, h, ⟨e, _⟩ | e⟩ := clock_does .flush none s <;> simp [flushQueue, e, h]

@[simp] theorem clock_fetchSuspended (op : QueueOp) (v : Option Byte) (s : State) :
    (s.clock op v).biu.fetchSuspended = s.biu.fetchSuspended := by
  obtain ⟨c, _, ⟨e, _⟩ | e⟩ := clock_does op v s <;> simp [e]

/-- A clock puts bytes behind the queue only. -/
theorem clock_queue (op : QueueOp) (v : Option Byte) (s : State) : ∃ l, (s.clock op v).biu.queue = s.biu.queue ++ l := by
  obtain ⟨c, _, ⟨e, _⟩ | e⟩ := clock_does op v s
  · exact ⟨[], by simp [e]⟩
  · exact ⟨_, by rw [e]; rfl⟩

theorem toData_queueOk (s : State) (h : QueueOk s) : QueueOk s.toData := by
  unfold State.toData
  split
  · exact clock_queueOk _ _ _ (clock_queueOk _ _ s h)
  · exact clock_queueOk _ _ s h
  all_goals exact h

@[simp] theorem toData_coming (s : State) : s.toData.biu.coming = s.biu.coming := by
  unfold State.toData
  split <;> simp

/-- The cycle has come to its data phase, or there is none before it. -/
theorem toData_data (s : State) : s.toData.biu.cycle.tstate ≠ .t1 ∧ s.toData.biu.cycle.tstate ≠ .t2 := by
  unfold State.toData
  split
  · rename_i h; rw [clock_t2 _ _ _ (by rw [clock_t1 _ _ _ h]; rfl)]; decide
  · rename_i h; rw [clock_t2 _ _ _ h]; decide
  all_goals (rename_i h; rw [h]; decide)

@[simp] theorem settle_fetching (s : State) : s.settle.biu.fetching = none := rfl

theorem settle_queueOk (s : State) (h : QueueOk s) : QueueOk s.settle :=
  queueOk_land (s := s.toData) rfl rfl rfl rfl rfl (toData_queueOk s h)

/-- Settled, the bus is free. -/
theorem settle_free (s : State) : s.settle.biu.cycle.tstate = .ti ∨ s.settle.biu.cycle.tstate = .t4 := finishCycle_free _

/-- Settled, the byte of a code fetch in progress is in the queue. -/
theorem settle_addrs (s : State) : s.settle.biu.queue.map QueueByte.addr = s.biu.coming := by
  rw [← toData_coming s]
  cases h : s.toData.biu.fetching <;> simp [State.settle, Biu.coming, h]

/-- With no code fetch in progress, none is after a clock. -/
theorem clock_fetching (op : QueueOp) (v : Option Byte) (s : State) (h : s.biu.fetching = none) :
    (s.clock op v).biu.fetching = none := by
  obtain ⟨c, _, ⟨e, _⟩ | e⟩ := clock_does op v s <;> simp [e, h]

@[simp] theorem beginCycle_fetching (r : BusRequest) (s : State) : (s.beginCycle r).biu.fetching = none := rfl

theorem beginCycle_queueOk (r : BusRequest) (s : State) (h : QueueOk s) : QueueOk (s.beginCycle r) :=
  queueOk_carry (s := s.settle) rfl rfl rfl rfl rfl (fun _ => fetchOnBus_none rfl) (settle_queueOk s h)

theorem openCycle_queueOk (r : BusRequest) (s : State) (h : QueueOk s) : QueueOk (s.openCycle r) :=
  queueOk_carry (s := s.settle) rfl rfl rfl rfl rfl (fun _ => fetchOnBus_none rfl) (settle_queueOk s h)

/-- The data phase of an EU's cycle, in which no code fetch is in progress. -/
theorem dataPhase_queueOk {r : BusRequest} {s t : State} {c : BusCycle} (hip : t.cpu.ip = s.cpu.ip)
    (hcs : t.cpu.segs.cs = s.cpu.segs.cs) (hb : t.biu = { (s.openCycle r).biu with cycle := c }) (h : QueueOk s) : QueueOk t :=
  queueOk_carry (s := s.openCycle r) (by simp [hip]) (by simp [hcs]) (by rw [hb]) (by rw [hb]) (by rw [hb])
    (fun _ => fetchOnBus_none (by rw [hb]; rfl)) (openCycle_queueOk r s h)

/-- A code fetch launched keeps the queue invariants where the bus is free and the queue has room (21 R323). -/
theorem startFetch_queueOk (s : State) (op : QueueOp) (v : Option Byte) (h : QueueOk s) (hl : s.biu.queue.length < Config.queueCap)
    (hn : s.biu.fetching = none) (hb : s.biu.cycle.tstate = .ti ∨ s.biu.cycle.tstate = .t4) : QueueOk (startFetch s op v) := by
  obtain ⟨_, hp, hf, _⟩ := h
  simp only [Biu.coming, hn, Option.toList_none, List.append_nil] at hf
  refine ⟨?_, ?_, ?_, ?_⟩
  · simp only [QueueBounded, Biu.coming, startFetch_biu, Option.toList_some, List.length_append, List.length_map,
      List.length_singleton]; omega
  · simpa using hp
  · simp only [Biu.coming, startFetch_biu, startFetch_cpu, Option.toList_some]
    exact (queueFrom_append _ _ _ _).mpr ⟨hf, by rw [hp, List.length_map]⟩
  · intro a ha
    simp only [startFetch_biu, Option.some.injEq] at ha
    rcases hb with hb | hb <;> simp [tickWith, tick, hb, nextCycle, startCycle, ha]

/-- A clock, with its launch of a code fetch, of a state with the same BIU and CS keeps the queue invariants. -/
theorem queueOk_euClock {op : QueueOp} {v : Option Byte} {s t u : State} (hip : t.cpu.ip = s.cpu.ip)
    (hcs : t.cpu.segs.cs = s.cpu.segs.cs) (hcu : u.cpu.segs.cs = s.cpu.segs.cs) (hu : u.biu = s.biu)
    (hb : t.biu = (euClock u op v).biu) (h : QueueOk s) : QueueOk t := by
  unfold euClock at hb
  split at hb
  · rename_i hm
    simp only [mayFetch, Bool.and_eq_true, decide_eq_true_eq, Option.isNone_iff_eq_none, Bool.or_eq_true, beq_iff_eq, hu] at hm
    exact queueOk_congr (s := startFetch s op v) hip hcs (by rw [hb, startFetch_biu, startFetch_biu, hu, hcu])
      (startFetch_queueOk s op v h hm.1.1.1.1 hm.1.1.1.2 hm.2)
  · exact queueOk_clock hip hcs hu hb h

theorem euClock_queueOk (s : State) (op : QueueOp) (v : Option Byte) (h : QueueOk s) : QueueOk (euClock s op v) :=
  queueOk_euClock (s := s) (by simp) (by simp) rfl rfl rfl h

theorem euClocks_queueOk (n : Nat) (s : State) (h : QueueOk s) : QueueOk (euClocks n s) := by
  induction n generalizing s with
  | zero => exact h
  | succ n ih => exact ih _ (euClock_queueOk s .idle none h)

theorem biuTurn_queueOk (s : State) (h : QueueOk s) : QueueOk (biuTurn s) := by
  unfold biuTurn
  exact euClocks_queueOk _ _ (queueOk_congr (by simp) (by simp) (by simp) h)

theorem awaitByte_queueOk (s : State) (h : QueueOk s) : QueueOk (awaitByte s) := by
  unfold awaitByte
  split
  · rename_i he
    simp only [List.isEmpty_iff] at he
    exact settle_queueOk _ (startFetch_queueOk _ _ _ (settle_queueOk s h) (by rw [he]; decide) rfl (settle_free s))
  · exact settle_queueOk s h

theorem memRead_queueOk (access : AccessType) (a : LinAddr) (s : State) (h : QueueOk s) : QueueOk (memRead access a s).2 :=
  dataPhase_queueOk (r := { kind := .memRead, access := access, addr := a, data := none }) (by simp [memRead])
    (by simp [memRead]) (by simp [memRead]; rfl) h

theorem takeEuClocks_queueOk (s : State) (h : QueueOk s) : QueueOk (takeEuClocks s).2 :=
  queueOk_congr (by simp) (by simp) (by simp) h

/-- The clocks after a write's T1, in whose data phase no code fetch is in progress. -/
theorem carryWrite_queueOk {data : QueueOp → State → State}
    (h : ∀ u, u.biu.fetching = none → QueueOk u → QueueOk (data .idle u)) (s : State) (hn : s.biu.fetching = none)
    (hq : QueueOk s) : QueueOk (carryWrite data s) :=
  euClocks_queueOk _ _ (h _ (clock_fetching _ _ _ (by simpa using hn)) (clock_queueOk _ _ _ (takeEuClocks_queueOk s hq)))

theorem dataWrite_queueOk (access : AccessType) (a : LinAddr) (v : Byte) (op : QueueOp) (s : State)
    (hn : s.biu.fetching = none) (h : QueueOk s) : QueueOk (dataWrite access a v op s) :=
  queueOk_carry (s := s) (by simp) (by simp) (by simp) (by simp) (by simp) (fun _ => fetchOnBus_none (by simpa using hn)) h

theorem memWrite_queueOk (access : AccessType) (a : LinAddr) (v : Byte) (s : State) (h : QueueOk s) :
    QueueOk (memWrite access a v s) :=
  carryWrite_queueOk (fun u hn hq => dataWrite_queueOk _ _ _ _ u hn hq) _ rfl (beginCycle_queueOk _ s h)

theorem readByteAt_queueOk (access : AccessType) (base off : Word) (s : State) (h : QueueOk s) :
    QueueOk (readByteAt access base off s).2 := by
  unfold readByteAt
  exact biuTurn_queueOk _ (memRead_queueOk _ _ _ (biuTurn_queueOk s h))

theorem readWordAt_queueOk (access : AccessType) (base off : Word) (s : State) (h : QueueOk s) :
    QueueOk (readWordAt access base off s).2 := by
  simp only [readWordAt]
  exact readByteAt_queueOk _ _ _ _ (readByteAt_queueOk _ _ _ _ h)

theorem writeByteAt_queueOk (access : AccessType) (base off : Word) (v : Byte) (s : State) (h : QueueOk s) :
    QueueOk (writeByteAt access base off v s) := by
  unfold writeByteAt
  exact memWrite_queueOk _ _ _ _ (biuTurn_queueOk s h)

theorem writeWordAt_queueOk (access : AccessType) (base off : Word) (v : Word) (s : State) (h : QueueOk s) :
    QueueOk (writeWordAt access base off v s) := by
  simp only [writeWordAt]
  exact writeByteAt_queueOk _ _ _ _ _ (writeByteAt_queueOk _ _ _ _ _ h)

/-! `fetch8` (21 R325). -/

theorem awaitByte_nonempty (s : State) : (awaitByte s).biu.queue ≠ [] := by
  unfold awaitByte
  split
  · intro e
    have k := settle_addrs (startFetch s.settle)
    simp [e, Biu.coming] at k
  · rename_i h
    simpa [List.isEmpty_iff] using h

/-- The state `fetch8` takes its byte from: a BIU turn, and the clocks until a byte is there where the queue was empty. -/
def fetchReady (s : State) : State := if (biuTurn s).biu.queue.isEmpty then awaitByte (biuTurn s) else biuTurn s

theorem fetchReady_nonempty (s : State) : ∃ q qs, (fetchReady s).biu.queue = q :: qs := by
  rw [← List.ne_nil_iff_exists_cons]
  unfold fetchReady
  split
  · exact awaitByte_nonempty _
  · rename_i h
    simpa [List.isEmpty_iff] using h

theorem fetchReady_queueOk (s : State) (h : QueueOk s) : QueueOk (fetchReady s) := by
  unfold fetchReady
  split
  · exact awaitByte_queueOk _ (biuTurn_queueOk s h)
  · exact biuTurn_queueOk s h

/-- `fetch8` takes the head of the ready queue and moves IP by one. -/
theorem fetch8_eq (s : State) : ∃ q qs op, (fetchReady s).biu.queue = q :: qs ∧
    fetch8 s = (q.byte, (takeByte op (fetchReady s)).setIp ((fetchReady s).cpu.ip + 1)) := by
  obtain ⟨q, qs, hq⟩ := fetchReady_nonempty s
  refine ⟨q, qs, fetchOp (fetchReady s).cpu, hq, ?_⟩
  unfold fetch8
  simp only [show (if (biuTurn s).biu.queue.isEmpty = true then awaitByte (biuTurn s) else biuTurn s) = fetchReady s from rfl]
  rw [hq]

@[simp] theorem fetchReady_bus (s : State) : (fetchReady s).bus = s.bus := by
  unfold fetchReady; split <;> simp

@[simp] theorem fetch8_bus (s : State) : (fetch8 s).2.bus = s.bus := by
  obtain ⟨q, qs, op, _, h⟩ := fetch8_eq s
  simp [h]

@[simp] theorem fetchReady_dev (s : State) : (fetchReady s).dev = s.dev := by
  unfold fetchReady; split <;> simp

@[simp] theorem fetch8_dev (s : State) : (fetch8 s).2.dev = s.dev := by
  obtain ⟨q, qs, op, _, h⟩ := fetch8_eq s
  simp [h]

@[simp] theorem fetchReady_params (s : State) : (fetchReady s).params = s.params := by
  unfold fetchReady; split <;> simp

@[simp] theorem fetch8_params (s : State) : (fetch8 s).2.params = s.params := by
  obtain ⟨q, qs, op, _, h⟩ := fetch8_eq s
  simp [h]

@[simp] theorem fetchReady_marks (s : State) : (fetchReady s).marks = s.marks := by
  unfold fetchReady; split <;> simp

@[simp] theorem fetch8_marks (s : State) : (fetch8 s).2.marks = s.marks := by
  obtain ⟨q, qs, op, _, h⟩ := fetch8_eq s
  simp [h]

@[simp] theorem fetchReady_cpu (s : State) : (fetchReady s).cpu = s.cpu := by
  unfold fetchReady; split <;> simp

/-- `fetch8` moves IP by one and changes nothing else of the CPU (10 R111). -/
@[simp] theorem fetch8_cpu (s : State) : (fetch8 s).2.cpu = s.cpu.putIp (s.cpu.ip + 1) := by
  obtain ⟨q, qs, op, _, h⟩ := fetch8_eq s
  simp [h]

/-- `fetch8` only appends to the history. -/
theorem fetch8_history (s : State) : s.history <:+ (fetch8 s).2.history := by
  obtain ⟨q, qs, op, _, h⟩ := fetch8_eq s
  rw [h]
  refine List.IsSuffix.trans ?_ (takeByte_history op (fetchReady s))
  unfold fetchReady
  split
  · exact (biuTurn_history s).trans (awaitByte_history _)
  · exact biuTurn_history s

/-- The head of the queue taken and IP moved by one keep the queue invariants (21 R322, R325). -/
theorem takeByte_queueOk (op : QueueOp) (q : QueueByte) (qs : List QueueByte) (s : State) (hq : s.biu.queue = q :: qs)
    (h : QueueOk s) : QueueOk ((takeByte op s).setIp (s.cpu.ip + 1)) := by
  obtain ⟨hb, hp, hf, hc⟩ := h
  have k : QueueOk ((s.mapBiu fun b => { b with queue := b.queue.drop 1 }).setIp (s.cpu.ip + 1)) := by
    simp only [QueueBounded, Biu.coming, hq, List.map_cons, List.cons_append, List.length_cons] at hb
    simp only [Biu.coming, hq, List.map_cons, List.cons_append, queueFrom] at hf
    refine ⟨?_, ?_, ?_, hc⟩
    · simp only [QueueBounded, Biu.coming, setIp_biu, mapBiu_biu, hq, List.drop_succ_cons, List.drop_zero]; omega
    · simp only [setIp_biu, mapBiu_biu, setIp_cpu, putIp_ip, hq, List.drop_succ_cons, List.drop_zero, hp, List.length_cons]
      rw [BitVec.add_assoc]; congr 1
      apply BitVec.eq_of_toNat_eq; simp [BitVec.toNat_ofNat]; omega
    · simpa [Biu.coming, hq] using hf.2
  exact queueOk_euClock (op := op) (v := s.biu.queue.head?.map QueueByte.byte)
    (u := s.mapBiu fun b => { b with queue := b.queue.drop 1 })
    (s := (s.mapBiu fun b => { b with queue := b.queue.drop 1 }).setIp (s.cpu.ip + 1)) (by simp) (by simp) rfl rfl rfl k

theorem fetch8_queueOk (s : State) (h : QueueOk s) : QueueOk (fetch8 s).2 := by
  obtain ⟨q, qs, op, hq, e⟩ := fetch8_eq s
  rw [e]
  exact takeByte_queueOk op q qs _ hq (fetchReady_queueOk s h)

/-! Flush and jumps (21 R327, 00 R13). -/

/-- An empty queue with PFP at IP. -/
theorem queueOk_empty {s : State} (hq : s.biu.queue = []) (hf : s.biu.fetching = none) (hp : s.biu.pfp = s.cpu.ip) : QueueOk s :=
  ⟨by simp [QueueBounded, Biu.coming, hq, hf], by simp [hp, hq], by simp [Biu.coming, hq, hf, queueFrom], fetchOnBus_none hf⟩

/-- A transfer in the clocks after a write's T1 only appends to the history. -/
theorem jumpInWrite_history (access : AccessType) (a : LinAddr) (v : Byte) (jump : Cpu → Cpu) (n : Nat) (s : State) :
    s.history <:+ (jumpInWrite access a v jump n s).history := by
  have d (op : QueueOp) (u : State) : u.history <:+ (dataWrite access a v op u).history := by
    rw [dataWrite_history]; exact List.suffix_cons _ _
  match n with
  | 0 => exact (flushQueue_history (s.mapCpu jump)).trans (d _ _)
  | 1 => exact (clock_history .idle none s).trans (d .flush ((s.clock .idle none).mapCpu jump))
  | n + 2 =>
    exact ((clock_history .idle none s).trans ((d _ _).trans (euClocks_history n _))).trans (flushQueue_history (State.mapCpu jump _))

theorem jumpNear_queueOk (t : Word) (s : State) : QueueOk (jumpNear t s) :=
  queueOk_empty (by simp [jumpNear]) (by simp [jumpNear]) (by simp [jumpNear])

theorem jumpFar_queueOk (sel off : Word) (s : State) : QueueOk (jumpFar sel off s) :=
  queueOk_empty (by simp [jumpFar]) (by simp [jumpFar]) (by simp [jumpFar])

end Sys2Proof.Machine
end

