-- ==== Sys2Proof/Laws/Decode.lean ====
section
/-! SUPPORT. The decoder and the encoder: field round trips, operand round trips, and that `decode` takes a prefix of the
stream and looks at nothing behind it (30 R400, R428). -/

namespace Sys2Proof

/-! Fields (30 R402). -/

@[simp] theorem modOf_modrmByte : ∀ m r x, modOf (modrmByte m r x) = m := by decide

@[simp] theorem regOf_modrmByte : ∀ m r x, regOf (modrmByte m r x) = r := by decide

@[simp] theorem rmOf_modrmByte : ∀ m r x, rmOf (modrmByte m r x) = x := by decide

@[simp] theorem reg8Of_num (r : Reg8) : reg8Of r.num = r := by cases r <;> rfl

@[simp] theorem reg16Of_num (r : Reg16) : reg16Of r.num = r := by cases r <;> rfl

@[simp] theorem sregOf_num (r : Sreg) : sregOf r.num = r := by cases r <;> rfl

@[simp] theorem baseOf_num (b : Base) : baseOf b.num = b := by cases b <;> rfl

/-- The two bytes of a word, put together again (20 R220). -/
@[simp] theorem word_of_bytes (w : Word) : (w.extractLsb' 8 8 ++ w.setWidth 8 : BitVec (8 + 8)) = w := by
  apply BitVec.eq_of_getLsbD_eq
  intro i hi
  simp only [BitVec.getLsbD_append, BitVec.getLsbD_extractLsb', BitVec.getLsbD_setWidth]
  split
  · simp_all
  · rw [show 8 + (i - 8) = i by omega]; simp; omega

/-! Operands (30 R420, R421). -/

/-- A well-formed memory operand's bytes: a ModR/M byte that is no register form, and a displacement that reads back. -/
theorem decodeMem_memBytes (reg : BitVec 3) (m : Mem) (h : m.wf = true) (rest : List Byte) : ∃ b bs, memBytes reg m = b :: bs ∧
    regOf b = reg ∧ modOf b ≠ 3 ∧ decodeMem (modOf b) (rmOf b) (bs ++ rest) = .ok (m, rest) := by
  cases m with
  | base b =>
    refine ⟨_, _, rfl, regOf_modrmByte _ _ _, by simp, ?_⟩
    cases b <;> simp [Mem.wf] at h <;> simp [decodeMem, Base.num, baseOf]
  | baseD8 b d => exact ⟨_, _, rfl, regOf_modrmByte _ _ _, by simp, by simp [decodeMem]⟩
  | baseD16 b d =>
    refine ⟨_, _, rfl, regOf_modrmByte _ _ _, by simp, ?_⟩
    simp [decodeMem, wordBytes]
  | direct d =>
    refine ⟨_, _, rfl, regOf_modrmByte _ _ _, by simp, ?_⟩
    simp [decodeMem, wordBytes]

theorem decodeRM8_rm8Bytes (reg : BitVec 3) (e : RM8) (h : e.wf = true) (rest : List Byte) : ∃ b bs,
    rm8Bytes reg e = b :: bs ∧ regOf b = reg ∧ decodeRM8 b (bs ++ rest) = .ok (e, rest) := by
  cases e with
  | reg r => exact ⟨_, _, rfl, regOf_modrmByte _ _ _, by simp [decodeRM8]⟩
  | mem m =>
    obtain ⟨b, bs, h1, h2, h3, h4⟩ := decodeMem_memBytes reg m h rest
    exact ⟨b, bs, h1, h2, by rw [decodeRM8, if_neg h3, h4]; rfl⟩

theorem decodeRM16_rm16Bytes (reg : BitVec 3) (e : RM16) (h : e.wf = true) (rest : List Byte) : ∃ b bs,
    rm16Bytes reg e = b :: bs ∧ regOf b = reg ∧ decodeRM16 b (bs ++ rest) = .ok (e, rest) := by
  cases e with
  | reg r => exact ⟨_, _, rfl, regOf_modrmByte _ _ _, by simp [decodeRM16]⟩
  | mem m =>
    obtain ⟨b, bs, h1, h2, h3, h4⟩ := decodeMem_memBytes reg m h rest
    exact ⟨b, bs, h1, h2, by rw [decodeRM16, if_neg h3, h4]; rfl⟩

/-! Templates: what a row's bytes read as, by the template of its opcode. -/

theorem read_modrm8 (f : BitVec 3 → RM8 → Tail) (reg : BitVec 3) (e : RM8) (h : e.wf = true) (rest : List Byte) :
    (Template.modrm8 f).read (rm8Bytes reg e ++ rest) = (f reg e).read rest := by
  obtain ⟨b, bs, h1, h2, h3⟩ := decodeRM8_rm8Bytes reg e h rest
  simp [h1, Template.read, h2, h3]

theorem read_modrm16 (f : BitVec 3 → RM16 → Tail) (reg : BitVec 3) (e : RM16) (h : e.wf = true) (rest : List Byte) :
    (Template.modrm16 f).read (rm16Bytes reg e ++ rest) = (f reg e).read rest := by
  obtain ⟨b, bs, h1, h2, h3⟩ := decodeRM16_rm16Bytes reg e h rest
  simp [h1, Template.read, h2, h3]

theorem read_iw (f : Word → Instr) (w : Word) (rest : List Byte) : (Tail.iw f).read (wordBytes w ++ rest) = .ok (f w, rest) := by
  simp [wordBytes, Tail.read]

theorem read_ptr (f : Word → Word → Instr) (o s : Word) (rest : List Byte) :
    (Template.ptr f).read (wordBytes o ++ wordBytes s ++ rest) = .ok (f o s, rest) := by
  simp [wordBytes, Template.read]

/-! `decode` takes a prefix and looks at nothing behind it. -/

/-- What a reader answers rests on the bytes it takes alone. -/
def TakesPrefix {α : Type} (f : List Byte → Except DecodeError (α × List Byte)) : Prop :=
  ∀ bs a rest, f bs = .ok (a, rest) → ∃ pre, bs = pre ++ rest ∧ ∀ more, f (pre ++ more) = .ok (a, more)

theorem Tail.takesPrefix (t : Tail) : TakesPrefix t.read := by
  intro bs a rest h
  cases t with
  | done i => cases h; exact ⟨[], rfl, fun _ => rfl⟩
  | ib f =>
    match bs, h with
    | b :: bs, h => cases h; exact ⟨[b], rfl, fun _ => rfl⟩
  | iw f =>
    match bs, h with
    | b :: c :: bs, h => cases h; exact ⟨[b, c], rfl, fun _ => rfl⟩

theorem decodeMem_takesPrefix (m : BitVec 2) (rm : BitVec 3) : TakesPrefix (decodeMem m rm) := by
  intro bs a rest h
  unfold decodeMem at h ⊢
  split at h
  · split at h
    · match bs, h with
      | b :: c :: bs, h => cases h; exact ⟨[b, c], rfl, fun _ => by simp_all⟩
    · cases h; exact ⟨[], rfl, fun _ => by simp_all⟩
  · split at h
    · match bs, h with
      | b :: bs, h => cases h; exact ⟨[b], rfl, fun _ => by simp_all⟩
    · match bs, h with
      | b :: c :: bs, h => cases h; exact ⟨[b, c], rfl, fun _ => by simp_all⟩

theorem decodeRM8_takesPrefix (b : Byte) : TakesPrefix (decodeRM8 b) := by
  intro bs a rest h
  unfold decodeRM8 at h ⊢
  split at h
  · cases h; exact ⟨[], rfl, fun _ => by simp_all⟩
  · cases k : decodeMem (modOf b) (rmOf b) bs with
    | error x => rw [k] at h; cases h
    | ok p =>
      rw [k] at h; cases h
      obtain ⟨pre, hp, hm⟩ := decodeMem_takesPrefix _ _ bs p.1 p.2 k
      exact ⟨pre, hp, fun more => by simp_all [Except.map]⟩

theorem decodeRM16_takesPrefix (b : Byte) : TakesPrefix (decodeRM16 b) := by
  intro bs a rest h
  unfold decodeRM16 at h ⊢
  split at h
  · cases h; exact ⟨[], rfl, fun _ => by simp_all⟩
  · cases k : decodeMem (modOf b) (rmOf b) bs with
    | error x => rw [k] at h; cases h
    | ok p =>
      rw [k] at h; cases h
      obtain ⟨pre, hp, hm⟩ := decodeMem_takesPrefix _ _ bs p.1 p.2 k
      exact ⟨pre, hp, fun more => by simp_all [Except.map]⟩

theorem Template.takesPrefix (t : Template) : TakesPrefix t.read := by
  intro bs a rest h
  match t, bs, h with
  | .plain t, bs, h => exact t.takesPrefix bs a rest h
  | .ptr f, o0 :: o1 :: s0 :: s1 :: bs, h => cases h; exact ⟨[o0, o1, s0, s1], rfl, fun _ => rfl⟩
  | .modrm8 f, b :: bs, h =>
    simp only [Template.read] at h
    cases k : decodeRM8 b bs with
    | error x => rw [k] at h; cases h
    | ok p =>
      rw [k] at h
      obtain ⟨pre, hp, hm⟩ := decodeRM8_takesPrefix b bs p.1 p.2 k
      obtain ⟨post, hq, hn⟩ := Tail.takesPrefix _ _ _ _ h
      refine ⟨b :: (pre ++ post), by simp [hp, hq], fun more => ?_⟩
      simp only [Template.read, List.cons_append, List.append_assoc, hm, hn]
  | .modrm16 f, b :: bs, h =>
    simp only [Template.read] at h
    cases k : decodeRM16 b bs with
    | error x => rw [k] at h; cases h
    | ok p =>
      rw [k] at h
      obtain ⟨pre, hp, hm⟩ := decodeRM16_takesPrefix b bs p.1 p.2 k
      obtain ⟨post, hq, hn⟩ := Tail.takesPrefix _ _ _ _ h
      refine ⟨b :: (pre ++ post), by simp [hp, hq], fun more => ?_⟩
      simp only [Template.read, List.cons_append, List.append_assoc, hm, hn]

/-- The bytes an instruction is decoded from decode to it whatever follows. -/
theorem decode_takesPrefix : TakesPrefix decode := by
  intro bs a rest h
  match bs, h with
  | op :: bs, h =>
    obtain ⟨pre, hp, hm⟩ := (templateOf op).takesPrefix bs a rest h
    exact ⟨op :: pre, by rw [hp]; rfl, hm⟩

/-- No proper prefix of an instruction's bytes decodes: taking bytes until they decode takes the instruction's. -/
theorem decode_proper_prefix {pre more : List Byte} {i : Instr} (h : decode (pre ++ more) = .ok (i, [])) (hm : more ≠ []) :
    decode pre = .error .truncated := by
  cases k : decode pre with
  | error x => cases x; rfl
  | ok p =>
    obtain ⟨q, hq, hd⟩ := decode_takesPrefix pre p.1 p.2 k
    have := hd (p.2 ++ more)
    rw [← List.append_assoc, ← hq, h] at this
    simp only [Except.ok.injEq, Prod.mk.injEq] at this
    exact absurd (List.append_eq_nil_iff.mp this.2.symm).2 hm

end Sys2Proof
end

