-- ==== Sys2Proof/Laws/Ops.lean ====
section
/-! SUPPORT. What each shared operation can do, once each, in the vocabulary of Safety.lean: reads and writes of memory and of
operands, the stack, the transfers, interrupt entry and return, the flags' free values. The proofs about instructions cite
these and unfold nothing below them. -/

namespace Sys2Proof.Machine

/-! Frames compose. -/

theorem Frame.refl (s : State) : Frame s s [] := ⟨fun _ _ => rfl, rfl, rfl, rfl, rfl, rfl, rfl, rfl, rfl⟩

/-- Two states with the same bus, parameters, marks and environment lines. -/
theorem Frame.of_eq {s t : State} (hb : t.bus = s.bus) (hp : t.params = s.params) (hm : t.marks = s.marks)
    (hi : t.env.ir = s.env.ir) (hn : t.env.nmiSource = s.env.nmiSource) (hd : t.env.dreq = s.env.dreq) : Frame s t [] := by
  constructor <;> simp [hb, hp, hm, hi, hn, hd]

theorem Frame.trans {s t u : State} {a b : List LinAddr} (h : Frame s t a) (k : Frame t u b) : Frame s u (a ++ b) := by
  constructor
  · intro x hx
    simp only [List.mem_append, not_or] at hx
    rw [k.bytes x hx.2, h.bytes x hx.1]
  · rw [k.rom, h.rom]
  · rw [k.mmio, h.mmio]
  · rw [k.cap, h.cap]
  · rw [k.params, h.params]
  · rw [k.marks, h.marks]
  · rw [k.ir, h.ir]
  · rw [k.nmi, h.nmi]
  · rw [k.dreq, h.dreq]

theorem QueueGrows.refl (s : State) : QueueGrows s s := ⟨rfl, [], by simp⟩

theorem QueueGrows.trans {s t u : State} (h : QueueGrows s t) (k : QueueGrows t u) : QueueGrows s u := by
  obtain ⟨hf, l, hl⟩ := h
  obtain ⟨kf, m, km⟩ := k
  exact ⟨kf.trans hf, l ++ m, by rw [km, hl, List.append_assoc]⟩

theorem Effect.refl (s : State) : Effect s s s.cpu s.bus [] := ⟨rfl, rfl, rfl, QueueGrows.refl s, Frame.refl s⟩

theorem Effect.trans {s t u : State} {c c' : Cpu} {b b' : Bus} {x y : List LinAddr} (h : Effect s t c b x)
    (k : Effect t u c' b' y) : Effect s u c' b' (x ++ y) :=
  ⟨k.1, k.2.1, k.2.2.1.trans h.2.2.1, h.2.2.2.1.trans k.2.2.2.1, h.2.2.2.2.trans k.2.2.2.2⟩

theorem Effect.call {s t u : State} {c c' : Cpu} {b b' : Bus} {x y : List LinAddr} (h : Effect s t c b x)
    (k : CallTransfer t u c' b' y) : CallTransfer s u c' b' (x ++ y) :=
  ⟨k.1, k.2.1, k.2.2.1.trans h.2.2.1, k.2.2.2.1, h.2.2.2.2.trans k.2.2.2.2⟩

theorem Effect.transfer {s t u : State} {c c' : Cpu} {b b' : Bus} {x y : List LinAddr} (h : Effect s t c b x)
    (k : Transfer t u c' b' y) : Transfer s u c' b' (x ++ y) :=
  ⟨k.1, k.2.1, k.2.2.1.trans h.2.2.1, k.2.2.2.1, h.2.2.2.2.trans k.2.2.2.2⟩

/-- A change of the CPU alone. -/
theorem mapCpu_effect (f : Cpu → Cpu) (s : State) : Effect s (s.mapCpu f) (f s.cpu) s.bus [] :=
  ⟨rfl, rfl, rfl, ⟨rfl, [], (List.append_nil _).symm⟩, Frame.of_eq rfl rfl rfl rfl rfl rfl⟩

theorem setReg16_effect (r : Reg16) (v : Word) (s : State) : Effect s (s.setReg16 r v) (s.cpu.put16 r v) s.bus [] :=
  mapCpu_effect _ s

theorem setReg8_effect (r : Reg8) (v : Byte) (s : State) : Effect s (s.setReg8 r v) (s.cpu.put8 r v) s.bus [] :=
  mapCpu_effect _ s

theorem setSeg_effect (r : Sreg) (v : Word) (s : State) : Effect s (s.setSeg r v) (s.cpu.putSeg r v) s.bus [] :=
  mapCpu_effect _ s

theorem setFlags_effect (f : Flags) (s : State) : Effect s (s.setFlags f) (s.cpu.putFlags f) s.bus [] := mapCpu_effect _ s

theorem mapFlags_effect (g : Flags → Flags) (s : State) :
    Effect s (s.mapFlags g) (s.cpu.putFlags (g s.cpu.flags)) s.bus [] := mapCpu_effect _ s

theorem bumpDraws_effect (s : State) : Effect s s.bumpDraws s.cpu s.bus [] :=
  ⟨rfl, rfl, rfl, ⟨rfl, [], (List.append_nil _).symm⟩, Frame.of_eq rfl rfl rfl rfl rfl rfl⟩

theorem drawBit_effect (s : State) : Effect s (drawBit s).2 s.cpu s.bus [] := bumpDraws_effect s

/-! The BIU. -/

theorem oracleRead_lines (s : State) : (oracleRead s).2.env.ir = s.env.ir ∧ (oracleRead s).2.env.nmiSource = s.env.nmiSource ∧
    (oracleRead s).2.env.dreq = s.env.dreq := by
  unfold oracleRead; split <;> exact ⟨rfl, rfl, rfl⟩

theorem oracleRead_effect (s : State) : Effect s (oracleRead s).2 s.cpu s.bus [] := by
  have h := oracleRead_lines s
  refine ⟨by simp, by simp, by simp, ⟨by simp, [], by simp⟩, ⟨by simp, by simp, by simp, by simp, by simp, by simp, h.1, h.2.1, h.2.2⟩⟩

theorem dispatchRead_effect (a : LinAddr) (s : State) : Effect s (dispatchRead a s).2 s.cpu s.bus [] := by
  unfold dispatchRead
  split
  · exact oracleRead_effect s
  · exact Effect.refl s

theorem oracleWrite_lines (s : State) : (oracleWrite s).2.env.ir = s.env.ir ∧ (oracleWrite s).2.env.nmiSource = s.env.nmiSource ∧
    (oracleWrite s).2.env.dreq = s.env.dreq := by
  unfold oracleWrite; split <;> exact ⟨rfl, rfl, rfl⟩

theorem writeWaits_lines (a : LinAddr) (s : State) : (writeWaits a s).2.env.ir = s.env.ir ∧
    (writeWaits a s).2.env.nmiSource = s.env.nmiSource ∧ (writeWaits a s).2.env.dreq = s.env.dreq := by
  unfold writeWaits; split
  · exact oracleWrite_lines s
  · exact ⟨rfl, rfl, rfl⟩

theorem drawByte_effect (s : State) : Effect s (drawByte s).2 s.cpu s.bus [] := bumpDraws_effect s

theorem drawAddr_effect (s : State) : Effect s (drawAddr s).2 s.cpu s.bus [] := bumpDraws_effect s

theorem fetchData_effect (s : State) : Effect s (fetchData s) s.cpu s.bus [] := by
  have h := (dispatchRead_effect s.biu.cycle.addr s).2.2.2.2
  exact ⟨by simp, by simp, by simp, ⟨by simp, [], by simp⟩,
    ⟨by simp, by simp, by simp, by simp, by simp, by simp, h.ir, h.nmi, h.dreq⟩⟩

/-- A clock of the BIU changes the queue by what is fetched, and nothing of CPU, bus, devices and lines (21 R309). -/
theorem clock_effect (op : QueueOp) (v : Option Byte) (s : State) : Effect s (s.clock op v) s.cpu s.bus [] := by
  refine ⟨by simp, by simp, by simp, ⟨by simp, clock_queue op v s⟩, ?_⟩
  unfold State.clock
  split
  · have h := (fetchData_effect s).2.2.2.2
    exact ⟨by simp, by simp, by simp, by simp, by simp, by simp, h.ir, h.nmi, h.dreq⟩
  · exact Frame.of_eq rfl rfl rfl rfl rfl rfl

theorem toData_effect (s : State) : Effect s s.toData s.cpu s.bus [] := by
  unfold State.toData
  split
  · simpa using (clock_effect .idle none s).trans (clock_effect .idle none _)
  · exact clock_effect ..
  all_goals exact Effect.refl s

theorem settle_effect (s : State) : Effect s s.settle s.cpu s.bus [] := by
  have k : Effect s.toData s.settle s.toData.cpu s.toData.bus [] :=
    ⟨rfl, rfl, rfl, ⟨rfl, _, rfl⟩, Frame.of_eq rfl rfl rfl rfl rfl rfl⟩
  simpa using (toData_effect s).trans k

/-- A change of the cycle record alone. -/
theorem cycle_effect (c : BusCycle) (s : State) : Effect s (s.mapBiu fun b => { b with cycle := c }) s.cpu s.bus [] :=
  ⟨rfl, rfl, rfl, ⟨rfl, [], (List.append_nil _).symm⟩, Frame.of_eq rfl rfl rfl rfl rfl rfl⟩

theorem openCycle_effect (r : BusRequest) (s : State) : Effect s (s.openCycle r) s.cpu s.bus [] := by
  simpa [State.openCycle, State.mapBiu] using (settle_effect s).trans (cycle_effect (openCycle r s.settle.biu.cycle) s.settle)

theorem holdData_effect (v : Option Byte) (n : Nat) (s : State) : Effect s (s.holdData v n) s.cpu s.bus [] := cycle_effect _ s

theorem beginCycle_effect (r : BusRequest) (s : State) : Effect s (s.beginCycle r) s.cpu s.bus [] := by
  simpa [State.beginCycle, State.mapBiu] using (settle_effect s).trans (cycle_effect (beginCycle r s.settle.biu.cycle) s.settle)

theorem writeData_effect (op : QueueOp) (n : Nat) (s : State) : Effect s (s.writeData op n) s.cpu s.bus [] := cycle_effect _ s

theorem record_effect (e : BusEvent) (s : State) : Effect s (s.record e) s.cpu s.bus [] :=
  ⟨rfl, rfl, rfl, ⟨rfl, [], (List.append_nil _).symm⟩, Frame.of_eq rfl rfl rfl rfl rfl rfl⟩

theorem startFetch_effect (s : State) (op : QueueOp) (v : Option Byte) : Effect s (startFetch s op v) s.cpu s.bus [] :=
  ⟨rfl, rfl, rfl, ⟨rfl, [], (List.append_nil _).symm⟩, Frame.of_eq rfl rfl rfl rfl rfl rfl⟩

theorem euClock_effect (s : State) (op : QueueOp) (v : Option Byte) : Effect s (euClock s op v) s.cpu s.bus [] := by
  unfold euClock
  split
  · exact startFetch_effect s op v
  · exact clock_effect _ _ s

theorem euClocks_effect (n : Nat) (s : State) : Effect s (euClocks n s) s.cpu s.bus [] := by
  induction n generalizing s with
  | zero => exact Effect.refl s
  | succ n ih => simpa [euClocks] using (euClock_effect s .idle none).trans (ih (euClock s))

theorem takeEuClocks_effect (s : State) : Effect s (takeEuClocks s).2 s.cpu s.bus [] := by
  unfold takeEuClocks
  split
  · exact ⟨rfl, rfl, rfl, ⟨rfl, [], (List.append_nil _).symm⟩, Frame.of_eq rfl rfl rfl rfl rfl rfl⟩
  · exact bumpDraws_effect s

/-- A BIU turn fetches, and nothing else (21 R309, R330). -/
theorem biuTurn_effect (s : State) : Effect s (biuTurn s) s.cpu s.bus [] := by
  simpa [biuTurn] using (takeEuClocks_effect s).trans (euClocks_effect (takeEuClocks s).1 (takeEuClocks s).2)

theorem memRead_effect (access : AccessType) (a : LinAddr) (s : State) : Effect s (memRead access a s).2 s.cpu s.bus [] := by
  let u := dispatchRead a (s.openCycle { kind := .memRead, access := access, addr := a, data := none })
  have h := (((openCycle_effect { kind := .memRead, access := access, addr := a, data := none } s).trans
    (dispatchRead_effect a _)).trans (holdData_effect (some u.1.value) u.1.waits _)).trans
    (record_effect (.memRead access a u.1.value) _)
  simpa [memRead, u] using h

/-- A byte read (00 R12). -/
theorem readByteAt_effect (access : AccessType) (base off : Word) (s : State) :
    ReadsByte s.bus base off (readByteAt access base off s).1 ∧
      Effect s (readByteAt access base off s).2 s.cpu s.bus [] := by
  refine ⟨readByteAt_value access base off s, ?_⟩
  simpa [readByteAt] using
    ((biuTurn_effect s).trans (memRead_effect access (lin base off) (biuTurn s))).trans (biuTurn_effect _)

/-- A word read: low byte first (20 R220, R222). -/
theorem readWordAt_effect (access : AccessType) (base off : Word) (s : State) :
    ReadsWord s.bus base off (readWordAt access base off s).1 ∧
      Effect s (readWordAt access base off s).2 s.cpu s.bus [] := by
  have h1 := readByteAt_effect access base off s
  have h2 := readByteAt_effect access base (off + 1) (readByteAt access base off s).2
  simp only [readByteAt_bus, readByteAt_cpu] at h2
  refine ⟨⟨?_, ?_⟩, by simpa [readWordAt] using h1.2.trans h2.2⟩
  · simpa [readWordAt] using h1.1
  · simpa [readWordAt] using h2.1

theorem store_frame_bytes (b : Bus) (a : LinAddr) (v : Byte) (x : LinAddr) (h : x ∉ [a]) : (b.store a v).byte x = b.byte x :=
  store_byte_other b a v x (by simpa using h)

theorem store_effect (a : LinAddr) (v : Byte) (s : State) :
    Effect s (s.mapBus fun b => b.store a v) s.cpu (s.bus.store a v) [a] :=
  ⟨rfl, rfl, rfl, ⟨rfl, [], (List.append_nil _).symm⟩,
    ⟨fun x hx => by simpa using store_frame_bytes s.bus a v x hx, by simp, by simp, by simp, rfl, rfl, rfl, rfl, rfl⟩⟩

theorem writeWaits_effect (a : LinAddr) (s : State) : Effect s (writeWaits a s).2 s.cpu s.bus [] := by
  obtain ⟨h1, h2, h3⟩ := writeWaits_lines a s
  exact ⟨by simp, by simp, by simp, ⟨by simp, [], by simp⟩, Frame.of_eq (by simp) (by simp) (by simp) h1 h2 h3⟩

/-- The clock of a write's data phase stores the byte (21 R302). -/
theorem dataWrite_effect (access : AccessType) (a : LinAddr) (v : Byte) (op : QueueOp) (s : State) :
    Effect s (dataWrite access a v op s) s.cpu (s.bus.store a v) [a] := by
  have h := (((writeWaits_effect a s).trans (writeData_effect op (writeWaits a s).1 _)).trans
    (record_effect (.memWrite access a v) _)).trans (store_effect a v _)
  simpa [dataWrite] using h

/-- A write started, and the number of the clocks that follow taken. -/
theorem beginWrite_effect (access : AccessType) (a : LinAddr) (v : Byte) (s : State) :
    Effect s (takeEuClocks (beginWrite access a v s)).2 s.cpu s.bus [] := by
  simpa [beginWrite] using (beginCycle_effect { kind := .memWrite, access := access, addr := a, data := some v } s).trans
    (takeEuClocks_effect _)

theorem memWrite_effect (access : AccessType) (a : LinAddr) (v : Byte) (s : State) :
    Effect s (memWrite access a v s) s.cpu (s.bus.store a v) [a] := by
  have h := (((beginWrite_effect access a v s).trans (clock_effect .idle none _)).trans (dataWrite_effect access a v .idle _)).trans
    (euClocks_effect ((takeEuClocks (beginWrite access a v s)).1 - 2) _)
  simpa [memWrite, carryWrite, beginWrite] using h

/-- A byte written (00 R12). -/
theorem writeByteAt_effect (access : AccessType) (base off : Word) (v : Byte) (s : State) :
    Effect s (writeByteAt access base off v s) s.cpu (s.bus.store (lin base off) v) [lin base off] := by
  have h := (biuTurn_effect s).trans (memWrite_effect access (lin base off) v (biuTurn s))
  simpa [writeByteAt] using h

/-- A word written, low byte first. -/
theorem writeWordAt_effect (access : AccessType) (base off v : Word) (s : State) :
    Effect s (writeWordAt access base off v s) s.cpu (s.bus.storeWord base off v) (wordCells base off) := by
  have h := (writeByteAt_effect access base off (loByte v) s).trans
    (writeByteAt_effect access base (off + 1) (hiByte v) (writeByteAt access base off (loByte v) s))
  simpa [writeWordAt, Bus.storeWord, wordCells] using h

/-! Operands. -/

theorem effAddr_congr {s t : State} (h : t.cpu.regs = s.cpu.regs) (m : Mem) : effAddr m t = effAddr m s := by
  have hr : ∀ r, t.reg16 r = s.reg16 r := fun r => by simp only [State.reg16, h]
  cases m <;> simp only [effAddr, baseValue, hr]

theorem effSeg_congr {s t : State} (h : t.cpu.pfx = s.cpu.pfx) (m : Mem) : effSeg m t = effSeg m s := by
  simp only [effSeg, State.segOr, h]

/-- The addressing modes use no SP (30 R421). -/
theorem effAddr_put16_sp (m : Mem) (v : Word) (s : State) : effAddr m (s.setReg16 .sp v) = effAddr m s := by
  cases m <;> (try rename_i b) <;> (try cases b) <;> rfl

theorem readRM8_effect (e : RM8) (s : State) : OpByte s e (readRM8 e s).1 ∧ Effect s (readRM8 e s).2 s.cpu s.bus [] := by
  cases e with
  | reg r => exact ⟨rfl, Effect.refl s⟩
  | mem m => exact readByteAt_effect _ _ _ s

theorem readRM16_effect (e : RM16) (s : State) : OpWord s e (readRM16 e s).1 ∧ Effect s (readRM16 e s).2 s.cpu s.bus [] := by
  cases e with
  | reg r => exact ⟨rfl, Effect.refl s⟩
  | mem m => exact readWordAt_effect _ _ _ s

/-- The write of a byte operand located in s, from a state t with the bus and the segment registers of s. -/
theorem writeLoc8_effect (e : RM8) (v : Byte) (s t : State) (hb : t.bus = s.bus) (hs : t.cpu.segs = s.cpu.segs) :
    Effect t (writeLoc8 (locate8 e s) v t) (cpuPut8 e v t.cpu) (busPut8 s e v) (cells8 s e) := by
  cases e with
  | reg r =>
    have h := setReg8_effect r v t
    rw [hb] at h; exact h
  | mem m =>
    have h := writeByteAt_effect (accessOf (effSeg m s)) (t.seg (effSeg m s)) (effAddr m s) v t
    have hg : t.seg (effSeg m s) = s.seg (effSeg m s) := by simp only [State.seg, hs]
    rw [hb, hg] at h
    simpa only [locate8, writeLoc8, segWrite8, cpuPut8, busPut8, cells8, hg] using h

/-- The write of a word operand located in s, from a state t with the bus and the segment registers of s. -/
theorem writeLoc16_effect (e : RM16) (v : Word) (s t : State) (hb : t.bus = s.bus) (hs : t.cpu.segs = s.cpu.segs) :
    Effect t (writeLoc16 (locate16 e s) v t) (cpuPut16 e v t.cpu) (busPut16 s e v) (cells16 s e) := by
  cases e with
  | reg r =>
    have h := setReg16_effect r v t
    rw [hb] at h; exact h
  | mem m =>
    have h := writeWordAt_effect (accessOf (effSeg m s)) (t.seg (effSeg m s)) (effAddr m s) v t
    have hg : t.seg (effSeg m s) = s.seg (effSeg m s) := by simp only [State.seg, hs]
    rw [hb, hg] at h
    simpa only [locate16, writeLoc16, segWrite16, cpuPut16, busPut16, cells16, hg] using h

theorem readLoc8_effect (e : RM8) (s : State) :
    OpByte s e (readLoc8 (locate8 e s) s).1 ∧ Effect s (readLoc8 (locate8 e s) s).2 s.cpu s.bus [] := readRM8_effect e s

theorem readLoc16_effect (e : RM16) (s : State) :
    OpWord s e (readLoc16 (locate16 e s) s).1 ∧ Effect s (readLoc16 (locate16 e s) s).2 s.cpu s.bus [] := readRM16_effect e s

/-! The stack. -/

/-- `Push(v)` (00 R12). -/
theorem push_effect (v : Word) (s : State) :
    Effect s (push v s) (s.cpu.put16 .sp (s.reg16 .sp - 2)) (s.bus.storeWord (s.seg .ss) (s.reg16 .sp - 2) v)
      (wordCells (s.seg .ss) (s.reg16 .sp - 2)) := by
  have h1 := setReg16_effect .sp (s.reg16 .sp - 2) s
  have h2 := writeWordAt_effect (accessOf .ss) (s.seg .ss) (s.reg16 .sp - 2) v (s.setReg16 .sp (s.reg16 .sp - 2))
  have h := h1.trans h2
  simpa [push, segWrite16, State.seg, State.reg16, State.setReg16, RegFile.set, RegFile.get, Cpu.put16] using h

/-- `Pop()` (00 R12). -/
theorem pop_effect (s : State) : ReadsWord s.bus (s.seg .ss) (s.reg16 .sp) (pop s).1 ∧
    Effect s (pop s).2 (s.cpu.put16 .sp (s.reg16 .sp + 2)) s.bus [] := by
  have h := readWordAt_effect (accessOf .ss) (s.seg .ss) (s.reg16 .sp) s
  refine ⟨h.1, ?_⟩
  have k := h.2.trans (setReg16_effect .sp ((segRead16 .ss (s.reg16 .sp) s).2.reg16 .sp + 2) _)
  simpa [pop, segRead16, State.reg16] using k

/-! Transfers. -/

/-- A flush leaves CPU, bus, devices and lines as they are. -/
theorem flushQueue_effect (s : State) : (flushQueue s).cpu = s.cpu ∧ (flushQueue s).bus = s.bus ∧
    (flushQueue s).dev = s.dev ∧ Frame s (flushQueue s) [] := by
  have h := (clock_effect .flush none s).2.2.2.2
  exact ⟨by simp, by simp, by simp, by simp, by simp, by simp, by simp, by simp, by simp, h.ir, h.nmi, h.dreq⟩

theorem jumpNear_transfer (t : Word) (s : State) : Transfer s (jumpNear t s) (s.cpu.putIp t) s.bus [] :=
  have h := flushQueue_effect (s.setIp t)
  have f := h.2.2.2
  ⟨h.1, h.2.1, h.2.2.1, ⟨rfl, rfl, by simp [jumpNear], flushQueue_queueOp _, rfl⟩, f.bytes, f.rom, f.mmio, f.cap, f.params, f.marks, f.ir, f.nmi, f.dreq⟩

theorem jumpFar_transfer (sel off : Word) (s : State) :
    Transfer s (jumpFar sel off s) ((s.cpu.putSeg .cs sel).putIp off) s.bus [] :=
  have h := flushQueue_effect ((s.setSeg .cs sel).setIp off)
  have f := h.2.2.2
  ⟨h.1, h.2.1, h.2.2.1, ⟨rfl, rfl, by simp [jumpFar], flushQueue_queueOp _, rfl⟩, f.bytes, f.rom, f.mmio, f.cap, f.params, f.marks, f.ir, f.nmi, f.dreq⟩

/-- What a transfer in the clocks after a write's T1 does, wherever its flush falls: CS:IP changed, the byte stored, the queue
flushed (21 R309, R327). -/
theorem jumpInWrite_does (access : AccessType) (a : LinAddr) (v : Byte) (jump : Cpu → Cpu) (n : Nat) (s : State)
    (ht : s.biu.cycle.tstate = .t1) :
    let t := jumpInWrite access a v jump n s
    t.cpu = jump s.cpu ∧ t.bus = s.bus.store a v ∧ t.dev = s.dev ∧ Frame s t [a] ∧
      t.biu.queue = [] ∧ t.biu.fetching = none ∧ t.biu.pfp = (jump s.cpu).ip ∧
      (t.biu.cycle.queueOp = .flush ∨ (t.biu.cycle.queueOp = .idle ∧ t.biu.cycle.tstate = .t3 ∧
        t.biu.cycle.busState = s.biu.cycle.busState ∧ t.biu.cycle.access = s.biu.cycle.access)) := by
  match n with
  | 0 =>
    have h := dataWrite_effect access a v .idle (flushQueue (s.mapCpu jump))
    have f := ((mapCpu_effect jump s).2.2.2.2.trans (flushQueue_effect (s.mapCpu jump)).2.2.2).trans h.2.2.2.2
    refine ⟨by simp [jumpInWrite], by simp [jumpInWrite], by simp [jumpInWrite], f, by simp [jumpInWrite], by simp [jumpInWrite],
      by simp [jumpInWrite], .inr ?_⟩
    have e := clock_t1 .flush none (s.mapCpu jump) ht
    simp [jumpInWrite, flushQueue, e, dataPhase, tick]
  | 1 =>
    have h := ((clock_effect .idle none s).trans (mapCpu_effect jump _)).trans
      (dataWrite_effect access a v .flush ((s.clock .idle none).mapCpu jump))
    have f := h.2.2.2.2
    refine ⟨by simp [jumpInWrite], by simp [jumpInWrite], by simp [jumpInWrite],
      ⟨f.bytes, f.rom, f.mmio, f.cap, f.params, f.marks, f.ir, f.nmi, f.dreq⟩, by simp [jumpInWrite], by simp [jumpInWrite],
      by simp [jumpInWrite], .inl (by simp [jumpInWrite])⟩
  | n + 2 =>
    have h := (((clock_effect .idle none s).trans (dataWrite_effect access a v .idle _)).trans (euClocks_effect n _)).trans
      (mapCpu_effect jump _)
    have f := h.2.2.2.2.trans (flushQueue_effect _).2.2.2
    exact ⟨by simp [jumpInWrite], by simp [jumpInWrite], by simp [jumpInWrite], f, rfl, rfl, by simp [jumpInWrite],
      .inl (flushQueue_queueOp _)⟩

/-- A push with the transfer after it (00 R12, R13, 21 R309). -/
theorem pushJump_transfer (v : Word) (jump : Cpu → Cpu) (s : State) :
    CallTransfer s (pushJump v jump s) (jump (s.cpu.put16 .sp (s.reg16 .sp - 2)))
      (s.bus.storeWord (s.seg .ss) (s.reg16 .sp - 2) v) (wordCells (s.seg .ss) (s.reg16 .sp - 2)) := by
  let t := s.setReg16 .sp (s.reg16 .sp - 2)
  let a := lin (t.seg .ss) (t.reg16 .sp + 1)
  let u := biuTurn (segWrite8 .ss (t.reg16 .sp) (loByte v) t)
  have h := (((setReg16_effect .sp (s.reg16 .sp - 2) s).trans
    (writeByteAt_effect (accessOf .ss) (t.seg .ss) (t.reg16 .sp) (loByte v) t)).trans (biuTurn_effect _)).trans
    (beginWrite_effect .stack a (hiByte v) u)
  have ht := beginWrite_t1 .stack a (hiByte v) u
  obtain ⟨hc, hb, hd, hf, k1, k2, k3, k4⟩ := jumpInWrite_does .stack a (hiByte v) jump (takeEuClocks (beginWrite .stack a (hiByte v) u)).1
    (takeEuClocks (beginWrite .stack a (hiByte v) u)).2 (by simpa using ht.1)
  have e : pushJump v jump s = resumeFetch (jumpInWrite .stack a (hiByte v) jump (takeEuClocks (beginWrite .stack a (hiByte v) u)).1
    (takeEuClocks (beginWrite .stack a (hiByte v) u)).2) := rfl
  have f := h.2.2.2.2.trans hf
  rw [h.1] at hc
  rw [h.2.1] at hb
  rw [h.1] at k3
  have uc : u.cpu = s.cpu.put16 .sp (s.reg16 .sp - 2) := by simp [u, t, segWrite8, State.setReg16, Cpu.put16]
  have ub : u.bus = s.bus.store (lin (s.seg .ss) (s.reg16 .sp - 2)) (loByte v) := by
    simp [u, t, segWrite8, State.seg, State.reg16, State.setReg16, RegFile.set, RegFile.get]
  have ta : a = lin (s.seg .ss) (s.reg16 .sp - 2 + 1) := rfl
  rw [uc] at hc k3
  rw [ub, ta] at hb
  rw [e]
  refine ⟨?_, ?_, ?_, ⟨k1, k2, ?_, rfl, ?_⟩, ?_⟩
  · exact hc
  · exact hb
  · exact hd.trans h.2.2.1
  · exact k3.trans (by rw [← hc]; rfl)
  · simpa [ht.2.1, ht.2.2.1] using k4
  · have g : Frame s (jumpInWrite .stack a (hiByte v) jump (takeEuClocks (beginWrite .stack a (hiByte v) u)).1
      (takeEuClocks (beginWrite .stack a (hiByte v) u)).2) (wordCells (s.seg .ss) (s.reg16 .sp - 2)) := by
      simpa [t, a, wordCells, State.seg, State.reg16, State.setReg16, RegFile.set, RegFile.get] using f
    exact ⟨g.bytes, g.rom, g.mmio, g.cap, g.params, g.marks, g.ir, g.nmi, g.dreq⟩

/-- A transfer after fetching was suspended: the suspension is over at its end. -/
theorem Transfer.of_suspended {s t : State} {c : Cpu} {b : Bus} {x : List LinAddr} (h : Transfer (suspendFetch s) t c b x) :
    Transfer s t c b x := by
  obtain ⟨h1, h2, h3, h4, h5⟩ := h
  exact ⟨h1, h2, h3, h4, ⟨h5.bytes, h5.rom, h5.mmio, h5.cap, h5.params, h5.marks, h5.ir, h5.nmi, h5.dreq⟩⟩

/-- A call after fetching was suspended. -/
theorem CallTransfer.of_suspended {s t : State} {c : Cpu} {b : Bus} {x : List LinAddr}
    (h : CallTransfer (suspendFetch s) t c b x) : CallTransfer s t c b x := by
  obtain ⟨h1, h2, h3, h4, h5⟩ := h
  exact ⟨h1, h2, h3, h4, ⟨h5.bytes, h5.rom, h5.mmio, h5.cap, h5.params, h5.marks, h5.ir, h5.nmi, h5.dreq⟩⟩

@[simp] theorem suspendFetch_reg16 (s : State) (r : Reg16) : (suspendFetch s).reg16 r = s.reg16 r := rfl

@[simp] theorem suspendFetch_seg (s : State) (r : Sreg) : (suspendFetch s).seg r = s.seg r := rfl

theorem sub_two_two (x : Word) : x - 2#16 - 2#16 = x - 4#16 := by
  rw [BitVec.sub_sub]; rfl

theorem sub_four_two (x : Word) : x - 4#16 - 2#16 = x - 6#16 := by
  rw [BitVec.sub_sub]; rfl

theorem add_two_two (x : Word) : x + 2#16 + 2#16 = x + 4#16 := by
  rw [BitVec.add_assoc]; rfl

theorem add_four_two (x : Word) : x + 4#16 + 2#16 = x + 6#16 := by
  rw [BitVec.add_assoc]; rfl

@[simp] theorem push_cpu (v : Word) (s : State) : (push v s).cpu = s.cpu.put16 .sp (s.reg16 .sp - 2) := (push_effect v s).1

@[simp] theorem push_bus (v : Word) (s : State) : (push v s).bus = s.bus.storeWord (s.seg .ss) (s.reg16 .sp - 2) v :=
  (push_effect v s).2.1

@[simp] theorem pop_cpu (s : State) : (pop s).2.cpu = s.cpu.put16 .sp (s.reg16 .sp + 2) := (pop_effect s).2.1

@[simp] theorem pop_bus (s : State) : (pop s).2.bus = s.bus := (pop_effect s).2.2.1

/-- Three words pushed, the flags changed after the first: the state `enter` reads the vector from. -/
theorem threePushes_effect (a b c : Word) (g : Flags → Flags) (s : State) :
    Effect s (push c (push b ((push a s).mapFlags g)))
      ((s.cpu.put16 .sp (s.reg16 .sp - 6)).putFlags (g s.cpu.flags))
      (((s.bus.storeWord (s.seg .ss) (s.reg16 .sp - 2) a).storeWord (s.seg .ss) (s.reg16 .sp - 4) b).storeWord (s.seg .ss)
        (s.reg16 .sp - 6) c)
      (wordCells (s.seg .ss) (s.reg16 .sp - 2) ++ wordCells (s.seg .ss) (s.reg16 .sp - 4) ++
        wordCells (s.seg .ss) (s.reg16 .sp - 6)) := by
  have h := (((push_effect a s).trans (mapFlags_effect g (push a s))).trans (push_effect b ((push a s).mapFlags g))).trans
    (push_effect c (push b ((push a s).mapFlags g)))
  simpa [State.reg16, State.seg, sub_two_two, sub_four_two, put16_putFlags] using h

/-- `enter(n, ret)` (60 R1220, R1223). -/
theorem enter_enters (n : Byte) (ret : Word) (s : State) : Enters n ret s.cpu.flags s (enter n ret s) := by
  have hp := threePushes_effect s.cpu.flags.image (s.seg .cs) ret (fun f => { f with ifl := false, tf := false }) (suspendFetch s)
  have hcs : ((push s.cpu.flags.image (suspendFetch s)).mapFlags fun f => { f with ifl := false, tf := false }).seg .cs =
      s.seg .cs := by simp [State.seg]
  have he : enter n ret s = jumpFar
      (vectorRead (4 * zext16 n + 2) (vectorRead (4 * zext16 n) (push ret (push (s.seg .cs)
        ((push s.cpu.flags.image (suspendFetch s)).mapFlags fun f => { f with ifl := false, tf := false })))).2).1
      (vectorRead (4 * zext16 n) (push ret (push (s.seg .cs)
        ((push s.cpu.flags.image (suspendFetch s)).mapFlags fun f => { f with ifl := false, tf := false })))).1
      (vectorRead (4 * zext16 n + 2) (vectorRead (4 * zext16 n) (push ret (push (s.seg .cs)
        ((push s.cpu.flags.image (suspendFetch s)).mapFlags fun f => { f with ifl := false, tf := false })))).2).2 := by
    rw [← hcs]; rfl
  rw [he]
  generalize push ret (push (s.seg .cs)
    ((push s.cpu.flags.image (suspendFetch s)).mapFlags fun f => { f with ifl := false, tf := false })) = t at hp ⊢
  have h1 := readWordAt_effect .code 0 (4 * zext16 n) t
  have h2 := readWordAt_effect .code 0 (4 * zext16 n + 2) (vectorRead (4 * zext16 n) t).2
  have hb : (vectorRead (4 * zext16 n) t).2.bus = t.bus := h1.2.2.1
  have hc : (vectorRead (4 * zext16 n) t).2.cpu = t.cpu := h1.2.1
  rw [hb] at h2
  have hj := jumpFar_transfer (vectorRead (4 * zext16 n + 2) (vectorRead (4 * zext16 n) t).2).1 (vectorRead (4 * zext16 n) t).1
    (vectorRead (4 * zext16 n + 2) (vectorRead (4 * zext16 n) t).2).2
  have hT := Transfer.of_suspended ((hp.trans (h1.2.trans h2.2)).transfer hj)
  have k1 := h1.1
  have k2 := h2.1
  rw [hp.2.1] at k1 k2
  refine ⟨_, _, k1, k2, ?_⟩
  have e2 : (readWordAt .code 0 (4 * zext16 n + 2) (vectorRead (4 * zext16 n) t).2).2.cpu = t.cpu := by
    rw [h2.2.1, hc]
  have e3 : (readWordAt .code 0 (4 * zext16 n + 2) (vectorRead (4 * zext16 n) t).2).2.bus = t.bus := h2.2.2.1
  simp only [vectorRead] at hT ⊢ e2 e3
  rw [e2, e3, hp.1, hp.2.1] at hT
  simpa using hT

/-- The return from an interrupt (44 R1021). -/
theorem interruptReturn_transfer (s : State) : ∃ o sel f, ReadsWord s.bus (s.seg .ss) (s.reg16 .sp) o ∧
    ReadsWord s.bus (s.seg .ss) (s.reg16 .sp + 2) sel ∧ ReadsWord s.bus (s.seg .ss) (s.reg16 .sp + 4) f ∧
    Transfer s (interruptReturn s)
      ((((s.cpu.put16 .sp (s.reg16 .sp + 6)).putFlags (flagsOfWord f)).putSeg .cs sel).putIp o) s.bus [] := by
  have h1 := pop_effect (suspendFetch s)
  have h2 := pop_effect (pop (suspendFetch s)).2
  have h3 := pop_effect (pop (pop (suspendFetch s)).2).2
  have h4 := setFlags_effect (flagsOfWord (pop (pop (pop (suspendFetch s)).2).2).1) (pop (pop (pop (suspendFetch s)).2).2).2
  have hj := jumpFar_transfer (pop (pop (suspendFetch s)).2).1 (pop (suspendFetch s)).1
    ((pop (pop (pop (suspendFetch s)).2).2).2.setFlags (flagsOfWord (pop (pop (pop (suspendFetch s)).2).2).1))
  have hT := Transfer.of_suspended ((((h1.2.trans h2.2).trans h3.2).trans h4).transfer hj)
  have k1 := h1.1
  have k2 := h2.1
  have k3 := h3.1
  refine ⟨_, _, _, k1, by simpa [State.reg16, State.seg] using k2, by simpa [State.reg16, State.seg, add_two_two] using k3, ?_⟩
  simpa [State.reg16, add_two_two, add_four_two, interruptReturn] using hT

end Sys2Proof.Machine
end

