-- ==== Sys2Proof/Laws/Flags.lean ====
section
/-! SUPPORT. What the flag computations and their free values leave: the results in BitVec arithmetic, and the effect of each
group of drawn flags. -/

namespace Sys2Proof.Machine

variable {w : Nat}

theorem addResult_eq (a b : BitVec w) (c : Bool) : addResult a b c = a + b + BitVec.ofNat w (bitNat c) := by
  simp [addResult, BitVec.ofNat_add]

@[simp] theorem addResult_false (a b : BitVec w) : addResult a b false = a + b := by
  simp [addResult, bitNat, BitVec.ofNat_add]

@[simp] theorem subResult_false (a b : BitVec w) : subResult a b false = a - b := by
  simp [subResult, bitNat]

/-- The flags of a logic operation, AF free (42 R800). -/
theorem setLogicFlags_effect (r : BitVec w) (s : State) : ∃ af, Effect s (setLogicFlags r s)
    (s.cpu.putFlags { s.cpu.flags.szp r with cf := false, ovf := false, af := af }) s.bus [] :=
  ⟨_, (drawBit_effect s).trans (mapFlags_effect _ (drawBit s).2)⟩

/-- The CPU changed after an effect. -/
theorem Effect.mapCpu {s u : State} {c : Cpu} {b : Bus} {x : List LinAddr} (h : Effect s u c b x) (f : Cpu → Cpu) :
    Effect s (u.mapCpu f) (f c) b x := by
  have k := h.trans (mapCpu_effect f u)
  rw [h.1, h.2.1] at k
  simpa using k

/-- The flags changed after an effect on neither CPU nor bus. -/
theorem Effect.mapFlags {s u : State} (h : Effect s u s.cpu s.bus []) (g : Flags → Flags) :
    Effect s (u.mapFlags g) (s.cpu.putFlags (g s.cpu.flags)) s.bus [] := by
  have k := h.trans (mapFlags_effect g u)
  rw [h.1, h.2.1] at k
  exact k

/-- Free values used. -/
theorem twoDraws_effect (s : State) : Effect s s.bumpDraws.bumpDraws s.cpu s.bus [] :=
  (bumpDraws_effect s).trans (bumpDraws_effect s.bumpDraws)

theorem threeDraws_effect (s : State) : Effect s s.bumpDraws.bumpDraws.bumpDraws s.cpu s.bus [] :=
  (twoDraws_effect s).trans (bumpDraws_effect s.bumpDraws.bumpDraws)

theorem fourDraws_effect (s : State) : Effect s s.bumpDraws.bumpDraws.bumpDraws.bumpDraws s.cpu s.bus [] :=
  (twoDraws_effect s).trans (twoDraws_effect s.bumpDraws.bumpDraws)

theorem sixDraws_effect (s : State) :
    Effect s s.bumpDraws.bumpDraws.bumpDraws.bumpDraws.bumpDraws.bumpDraws s.cpu s.bus [] :=
  (fourDraws_effect s).trans (twoDraws_effect s.bumpDraws.bumpDraws.bumpDraws.bumpDraws)

/-- The six arithmetic flags free, the others kept (31 R507). -/
theorem drawSixFlags_effect (s : State) : ∃ f, f.tf = s.cpu.flags.tf ∧ f.ifl = s.cpu.flags.ifl ∧ f.df = s.cpu.flags.df ∧
    Effect s (drawSixFlags s) (s.cpu.putFlags f) s.bus [] := by
  simp only [drawSixFlags, drawBit]
  refine ⟨_, ?_, ?_, ?_, (sixDraws_effect s).mapFlags _⟩ <;> rfl

/-- CF and OF given, SF, ZF, AF, PF free (41 R720). -/
theorem setMulFlags_effect (v : Bool) (s : State) : ∃ sf zf af pf, Effect s (setMulFlags v s)
    (s.cpu.putFlags { s.cpu.flags with cf := v, ovf := v, sf := sf, zf := zf, af := af, pf := pf }) s.bus [] := by
  simp only [setMulFlags, drawBit]
  exact ⟨_, _, _, _, (fourDraws_effect s).mapFlags _⟩

/-- SZP of r, and CF, OF, AF free (41 R744). -/
theorem asciiFlags_effect (r : Byte) (s : State) : ∃ c o a, Effect s (asciiFlags r s)
    (s.cpu.putFlags { s.cpu.flags.szp r with cf := c, ovf := o, af := a }) s.bus [] := by
  simp only [asciiFlags, drawBit]
  exact ⟨_, _, _, (threeDraws_effect s).mapFlags _⟩

/-- `Enters` from a state that differs from another by an effect of flags and free values alone. -/
theorem Enters.of_effect {n : Byte} {ret : Word} {f g : Flags} {s t u : State} (h : Effect s t (s.cpu.putFlags f) s.bus [])
    (k : Enters n ret g t u) : Enters n ret g s u := by
  obtain ⟨o, sel, k1, k2, k3⟩ := k
  have ha : t.reg16 .sp = s.reg16 .sp := by simp only [State.reg16, h.1, putFlags_regs]
  have hb : ∀ r, t.seg r = s.seg r := fun r => by simp only [State.seg, h.1, putFlags_segs]
  simp only [ha, hb, h.2.1] at k1 k2 k3
  refine ⟨o, sel, k1, k2, ?_⟩
  have m := h.transfer k3
  rw [h.1] at m
  exact m

/-- `divide_error()` (41 R724, 60 R1210). -/
theorem divideError_enters (s : State) : ∃ f, f.tf = s.cpu.flags.tf ∧ f.ifl = s.cpu.flags.ifl ∧ f.df = s.cpu.flags.df ∧
    Enters 0 (match s.params.divErrorReturn with | .next => s.cpu.ip | .faulting => s.cpu.ipStart) f s (divideError s) := by
  obtain ⟨f, h1, h2, h3, h⟩ := drawSixFlags_effect s
  refine ⟨f, h1, h2, h3, ?_⟩
  have k := enter_enters 0 (match s.params.divErrorReturn with | .next => s.cpu.ip | .faulting => s.cpu.ipStart) (drawSixFlags s)
  have hf : (drawSixFlags s).cpu.flags = f := by rw [h.1]; rfl
  rw [hf] at k
  exact Enters.of_effect h k

end Sys2Proof.Machine
end

