-- ==== Sys2Proof/Laws/Forms.lean ====
section
/-! SUPPORT. The effect of the forms that instructions of several families share: read-modify-write operands, the write-back
of a count-0 shift, string elements, IO accesses. -/

namespace Sys2Proof.Machine

/-- A byte operand read once, changed with the flags, written once (31 R505). -/
theorem modifyRM8_effect (e : RM8) (r : Byte → Byte) (g : Byte → Flags → Flags) (s : State) :
    ∃ a, OpByte s e a ∧ Effect s (modifyRM8 e (fun a t => (r a, t.mapFlags (g a))) s)
      (cpuPut8 e (r a) (s.cpu.putFlags (g a s.cpu.flags))) (busPut8 s e (r a)) (cells8 s e) := by
  have h := readLoc8_effect e s
  have k := h.2.mapFlags (g (readLoc8 (locate8 e s) s).1)
  have m := writeLoc8_effect e (r (readLoc8 (locate8 e s) s).1) s _ k.2.1 (by rw [k.1]; rfl)
  rw [k.1] at m
  exact ⟨_, h.1, k.trans m⟩

/-- A word operand read once, changed with the flags, written once. -/
theorem modifyRM16_effect (e : RM16) (r : Word → Word) (g : Word → Flags → Flags) (s : State) :
    ∃ a, OpWord s e a ∧ Effect s (modifyRM16 e (fun a t => (r a, t.mapFlags (g a))) s)
      (cpuPut16 e (r a) (s.cpu.putFlags (g a s.cpu.flags))) (busPut16 s e (r a)) (cells16 s e) := by
  have h := readLoc16_effect e s
  have k := h.2.mapFlags (g (readLoc16 (locate16 e s) s).1)
  have m := writeLoc16_effect e (r (readLoc16 (locate16 e s) s).1) s _ k.2.1 (by rw [k.1]; rfl)
  rw [k.1] at m
  exact ⟨_, h.1, k.trans m⟩

/-- The write-back of a count-0 shift changes neither CPU nor memory (42 R810, D46). -/
theorem rewriteByteAt_effect (b : Bool) (access : AccessType) (base off : Word) (v : Byte) (s : State) :
    Effect s (rewriteByteAt b access base off v s) s.cpu s.bus [] := by
  let c := takeEuClocks (biuTurn s).settle
  have hl := oracleWrite_lines c.2
  have h (t : State) (hc : t.cpu = c.2.cpu) (hb : t.bus = c.2.bus) (hd : t.dev = c.2.dev) (hq : QueueGrows c.2 t)
      (hp : t.params = c.2.params) (hm : t.marks = c.2.marks) (he : t.env.ir = c.2.env.ir ∧ t.env.nmiSource = c.2.env.nmiSource ∧
        t.env.dreq = c.2.env.dreq) : Effect s (euClocks (c.1 - 2) t) s.cpu s.bus [] := by
    have k : Effect c.2 t c.2.cpu c.2.bus [] := ⟨hc, hb, hd, hq, Frame.of_eq hb hp hm he.1 he.2.1 he.2.2⟩
    simpa [c, hc, hb] using ((((biuTurn_effect s).trans (settle_effect _)).trans (takeEuClocks_effect _)).trans k).trans
      (euClocks_effect (c.1 - 2) t)
  unfold rewriteByteAt
  exact h _ rfl rfl rfl ⟨rfl, [], (List.append_nil _).symm⟩ rfl rfl (by dsimp only; split <;> first | exact hl | exact ⟨rfl, rfl, rfl⟩)

theorem rewriteLoc8_effect (l : Loc8) (v : Byte) (s : State) : Effect s (rewriteLoc8 l v s) s.cpu s.bus [] := by
  unfold rewriteLoc8
  split
  · exact Effect.refl s
  · exact (drawBit_effect s).trans (rewriteByteAt_effect ..)

theorem rewriteLoc16_effect (l : Loc16) (v : Word) (s : State) : Effect s (rewriteLoc16 l v s) s.cpu s.bus [] := by
  unfold rewriteLoc16
  split
  · exact Effect.refl s
  · rename_i sr off
    have h1 := (drawBit_effect s).trans (rewriteByteAt_effect (drawBit s).1 (accessOf sr) (s.seg sr) off (loByte v) (drawBit s).2)
    have h2 := rewriteByteAt_effect (drawBit s).1 (accessOf sr) (s.seg sr) (off + 1) (hiByte v)
      (rewriteByteAt (drawBit s).1 (accessOf sr) (s.seg sr) off (loByte v) (drawBit s).2)
    rw [h1.1, h1.2.1] at h2
    exact h1.trans h2

/-- A string element read: a byte, zero-extended, or a word (43 R900). -/
theorem readElem_effect (wide : Bool) (sr : Sreg) (off : Word) (s : State) :
    (wide = true → ReadsWord s.bus (s.seg sr) off (readElem wide sr off s).1) ∧
    (wide = false → ∃ v, ReadsByte s.bus (s.seg sr) off v ∧ (readElem wide sr off s).1 = zext16 v) ∧
    Effect s (readElem wide sr off s).2 s.cpu s.bus [] := by
  cases wide
  · have h := readByteAt_effect (accessOf sr) (s.seg sr) off s
    exact ⟨fun e => Bool.noConfusion e, fun _ => ⟨_, h.1, rfl⟩, h.2⟩
  · have h := readWordAt_effect (accessOf sr) (s.seg sr) off s
    exact ⟨fun _ => h.1, fun e => Bool.noConfusion e, h.2⟩

/-- A string element written. -/
theorem writeElem_effect (wide : Bool) (sr : Sreg) (off v : Word) (s : State) :
    Effect s (writeElem wide sr off v s) s.cpu
      (if wide then s.bus.storeWord (s.seg sr) off v else s.bus.store (lin (s.seg sr) off) (loByte v))
      (if wide then wordCells (s.seg sr) off else [lin (s.seg sr) off]) := by
  cases wide
  · simpa [writeElem, segWrite8, segWrite16] using writeByteAt_effect (accessOf sr) (s.seg sr) off (loByte v) s
  · simpa [writeElem, segWrite8, segWrite16] using writeWordAt_effect (accessOf sr) (s.seg sr) off v s

/-! IO ports (20 R230). -/

/-- A port read changes devices, environment answers and free values only. -/
theorem portRead_fields (p : Word) (s : State) : (portRead p s).2.cpu = s.cpu ∧ (portRead p s).2.bus = s.bus ∧
    (portRead p s).2.biu = s.biu ∧ (portRead p s).2.params = s.params ∧ (portRead p s).2.marks = s.marks := by
  unfold portRead
  split <;> (try exact ⟨rfl, rfl, rfl, rfl, rfl⟩)
  · unfold picPortRead plainAnswer; split <;> exact ⟨rfl, rfl, rfl, rfl, rfl⟩
  · unfold pitRead plainAnswer; simp only []; (split <;> split <;> exact ⟨rfl, rfl, rfl, rfl, rfl⟩)
  · simp

/-- A port read records nothing itself. -/
theorem portRead_history (p : Word) (s : State) : (portRead p s).2.history = s.history := by
  unfold portRead
  split <;> (try exact rfl)
  · unfold picPortRead plainAnswer; split <;> rfl
  · unfold pitRead plainAnswer; simp only []; (split <;> split <;> rfl)
  · simp

/-- The wait states of a port write come from the environment's schedule or from a free value. -/
theorem portWriteWaits_fields (p : Word) (s : State) : (portWriteWaits p s).2.cpu = s.cpu ∧ (portWriteWaits p s).2.bus = s.bus ∧
    (portWriteWaits p s).2.biu = s.biu ∧ (portWriteWaits p s).2.params = s.params ∧
    (portWriteWaits p s).2.marks = s.marks ∧ (portWriteWaits p s).2.history = s.history := by
  unfold portWriteWaits
  split
  · simp
  · exact ⟨rfl, rfl, rfl, rfl, rfl, rfl⟩

/-- A port write changes devices and free values only. -/
theorem portWrite_fields (p : Word) (v : Byte) (s : State) : (portWrite p v s).cpu = s.cpu ∧ (portWrite p v s).bus = s.bus ∧
    (portWrite p v s).biu = s.biu ∧ (portWrite p v s).params = s.params ∧ (portWrite p v s).marks = s.marks ∧
    (portWrite p v s).env = s.env ∧ (portWrite p v s).history = s.history := by
  have hp : ∀ (t : State) (i : BitVec 2) (c : PitCounter), (t.putCounter i c).cpu = t.cpu ∧ (t.putCounter i c).bus = t.bus ∧
      (t.putCounter i c).biu = t.biu ∧ (t.putCounter i c).params = t.params ∧ (t.putCounter i c).marks = t.marks ∧
      (t.putCounter i c).env = t.env ∧ (t.putCounter i c).history = t.history := by
    intro t i c
    unfold State.putCounter drawCounter
    simp only []
    split <;> exact ⟨rfl, rfl, rfl, rfl, rfl, rfl, rfl⟩
  unfold portWrite
  split <;> (try exact ⟨rfl, rfl, rfl, rfl, rfl, rfl, rfl⟩)
  · exact hp _ _ _
  · unfold pitControl; simp only []; split
    · exact ⟨rfl, rfl, rfl, rfl, rfl, rfl, rfl⟩
    · exact hp _ _ _

end Sys2Proof.Machine
end

