-- ==== Sys2Proof/Laws/Keeps.lean ====
section
/-! SUPPORT. What every meaning keeps, said once: the queue invariants, a bus changed by stores only, the parameters and the
fault mark. One lemma per shared operation; the case split over instructions stands at the end. -/

namespace Sys2Proof.Machine

/-- A bus reached from another by stores. -/
inductive StoresOnly (b : Bus) : Bus → Prop where
  | refl : StoresOnly b b
  | store (c : Bus) (a : LinAddr) (v : Byte) : StoresOnly b c → StoresOnly b (c.store a v)

theorem StoresOnly.trans {b c d : Bus} (h : StoresOnly b c) (k : StoresOnly c d) : StoresOnly b d := by
  induction k with
  | refl => exact h
  | store e a v _ ih => exact ih.store e a v

theorem StoresOnly.storeWord {b c : Bus} (h : StoresOnly b c) (base off v : Word) : StoresOnly b (c.storeWord base off v) :=
  (h.store c _ _).store _ _ _

theorem StoresOnly.wf {b c : Bus} (h : StoresOnly b c) (k : Memory.wf b.mem = true) : Memory.wf c.mem = true := by
  induction h with
  | refl => exact k
  | store c a v _ ih => exact store_wf c ih a v

theorem StoresOnly.routes {b c : Bus} (h : StoresOnly b c) : c.romRegions = b.romRegions ∧ c.mmioMap = b.mmioMap ∧
    c.convMemCap = b.convMemCap ∧ ∀ a, c.writable a = b.writable a := by
  induction h with
  | refl => exact ⟨rfl, rfl, rfl, fun _ => rfl⟩
  | store c a v _ ih => simpa using ih

/-- A byte no write reaches stays as it is (20 R213). -/
theorem StoresOnly.fixed {b c : Bus} (h : StoresOnly b c) (a : LinAddr) (k : b.writable a = false) : c.byte a = b.byte a := by
  induction h with
  | refl => rfl
  | store c x v hc ih => rw [store_byte_fixed c x v a (by rw [hc.routes.2.2.2, k]), ih]

/-- What every meaning and every CPU step keeps. -/
structure Keeps (s t : State) : Prop where
  queue : QueueOk s → QueueOk t
  bus : StoresOnly s.bus t.bus
  params : t.params = s.params
  fault : t.marks.fault = s.marks.fault
  history : s.history <:+ t.history

theorem Keeps.refl (s : State) : Keeps s s := ⟨id, .refl, rfl, rfl, List.suffix_refl _⟩

theorem Keeps.trans {s t u : State} (h : Keeps s t) (k : Keeps t u) : Keeps s u :=
  ⟨fun q => k.queue (h.queue q), h.bus.trans k.bus, k.params.trans h.params, k.fault.trans h.fault,
    h.history.trans k.history⟩

/-- A change of neither IP, CS, BIU, bus, parameters, marks nor history. -/
theorem Keeps.of_eq {s t : State} (hi : t.cpu.ip = s.cpu.ip) (hc : t.cpu.segs.cs = s.cpu.segs.cs) (hq : t.biu = s.biu)
    (hb : t.bus = s.bus) (hr : t.params = s.params) (hm : t.marks.fault = s.marks.fault) (hh : t.history = s.history) :
    Keeps s t :=
  ⟨queueOk_congr hi hc hq, by rw [hb]; exact .refl, hr, hm, hh ▸ List.suffix_refl _⟩

theorem setReg16_keeps (r : Reg16) (v : Word) (s : State) : Keeps s (s.setReg16 r v) := .of_eq rfl rfl rfl rfl rfl rfl rfl

theorem setReg8_keeps (r : Reg8) (v : Byte) (s : State) : Keeps s (s.setReg8 r v) := setReg16_keeps _ _ s

theorem setSeg_keeps (r : Sreg) (v : Word) (s : State) (h : r ≠ .cs) : Keeps s (s.setSeg r v) := by
  cases r with
  | cs => exact absurd rfl h
  | es => exact .of_eq rfl rfl rfl rfl rfl rfl rfl
  | ss => exact .of_eq rfl rfl rfl rfl rfl rfl rfl
  | ds => exact .of_eq rfl rfl rfl rfl rfl rfl rfl

theorem setFlags_keeps (f : Flags) (s : State) : Keeps s (s.setFlags f) := .of_eq rfl rfl rfl rfl rfl rfl rfl

theorem mapFlags_keeps (g : Flags → Flags) (s : State) : Keeps s (s.mapFlags g) := setFlags_keeps _ s

theorem setRepRun_keeps (r : Option RepRun) (s : State) : Keeps s (s.setRepRun r) := .of_eq rfl rfl rfl rfl rfl rfl rfl

theorem bumpDraws_keeps (s : State) : Keeps s s.bumpDraws := .of_eq rfl rfl rfl rfl rfl rfl rfl

theorem suspendFetch_keeps (s : State) : Keeps s (suspendFetch s) :=
  ⟨queueOk_carry rfl rfl rfl rfl rfl id, .refl, rfl, rfl, List.suffix_refl _⟩

theorem resumeFetch_keeps (s : State) : Keeps s (resumeFetch s) :=
  ⟨queueOk_carry rfl rfl rfl rfl rfl id, .refl, rfl, rfl, List.suffix_refl _⟩

/-- An event appended to the history. -/
theorem record_keeps (e : BusEvent) (s : State) : Keeps s (s.record e) :=
  ⟨queueOk_congr rfl rfl rfl, .refl, rfl, rfl, List.suffix_cons _ _⟩

/-! Memory and ports. -/

theorem biuTurn_keeps (s : State) : Keeps s (biuTurn s) :=
  ⟨biuTurn_queueOk s, by rw [biuTurn_bus]; exact .refl, by simp, by simp, biuTurn_history s⟩

theorem readByteAt_keeps (access : AccessType) (base off : Word) (s : State) : Keeps s (readByteAt access base off s).2 :=
  ⟨readByteAt_queueOk _ _ _ s, by rw [readByteAt_bus]; exact .refl, by simp, by simp, readByteAt_history ..⟩

theorem readWordAt_keeps (access : AccessType) (base off : Word) (s : State) : Keeps s (readWordAt access base off s).2 :=
  ⟨readWordAt_queueOk _ _ _ s, by rw [readWordAt_bus]; exact .refl, by simp, by simp, readWordAt_history ..⟩

theorem writeByteAt_keeps (access : AccessType) (base off : Word) (v : Byte) (s : State) :
    Keeps s (writeByteAt access base off v s) :=
  ⟨writeByteAt_queueOk _ _ _ _ s, by rw [writeByteAt_bus]; exact .store _ _ _ .refl, by simp, by simp, writeByteAt_history ..⟩

theorem writeWordAt_keeps (access : AccessType) (base off v : Word) (s : State) :
    Keeps s (writeWordAt access base off v s) :=
  ⟨writeWordAt_queueOk _ _ _ _ s, by rw [writeWordAt_bus]; exact .storeWord .refl _ _ _, by simp, by simp,
    writeWordAt_history ..⟩

theorem settle_keeps (s : State) : Keeps s s.settle :=
  ⟨settle_queueOk s, by rw [settle_bus]; exact .refl, by simp, by simp, settle_history s⟩

theorem clock_keeps (op : QueueOp) (v : Option Byte) (s : State) : Keeps s (s.clock op v) :=
  ⟨clock_queueOk op v s, by rw [clock_bus]; exact .refl, by simp, by simp, clock_history op v s⟩

/-- A whole cycle of the EU: what happens in its data phase leaves the BIU alone. -/
theorem heldCycle_keeps {r : BusRequest} {s u : State} (k : Keeps (s.openCycle r) u) (hi : u.cpu.ip = s.cpu.ip)
    (hc : u.cpu.segs.cs = s.cpu.segs.cs) (hu : u.biu = (s.openCycle r).biu) (v : Option Byte) (n : Nat) :
    Keeps s (u.holdData v n) :=
  ⟨fun q => dataPhase_queueOk (r := r) hi hc (by rw [holdData_biu, hu]) q,
    by have h := k.bus; rw [openCycle_bus] at h; exact h, by rw [holdData_params, k.params, openCycle_params],
    by rw [holdData_marks, k.fault, openCycle_marks], (openCycle_history r s).trans k.history⟩

theorem beginCycle_keeps (r : BusRequest) (s : State) : Keeps s (s.beginCycle r) :=
  ⟨beginCycle_queueOk r s, by rw [beginCycle_bus]; exact .refl, by simp, by simp, beginCycle_history r s⟩

theorem takeEuClocks_keeps (s : State) : Keeps s (takeEuClocks s).2 :=
  ⟨takeEuClocks_queueOk s, by rw [takeEuClocks_bus]; exact .refl, by simp, by simp, ⟨[], (takeEuClocks_history s).symm⟩⟩

theorem euClocks_keeps (n : Nat) (s : State) : Keeps s (euClocks n s) :=
  ⟨euClocks_queueOk n s, by rw [euClocks_bus]; exact .refl, by simp, by simp, euClocks_history n s⟩

/-- The clocks after a write's T1, in whose data phase no code fetch is in progress. -/
theorem carryWrite_keeps {data : QueueOp → State → State} (h : ∀ u, u.biu.fetching = none → Keeps u (data .idle u)) (s : State)
    (hn : s.biu.fetching = none) : Keeps s (carryWrite data s) :=
  (((takeEuClocks_keeps s).trans (clock_keeps .idle none _)).trans (h _ (clock_fetching _ _ _ (by simpa using hn)))).trans
    (euClocks_keeps _ _)

/-- The cycle record moved on, with no code fetch in progress. -/
theorem writeData_keeps (op : QueueOp) (n : Nat) (s : State) (hn : s.biu.fetching = none) : Keeps s (s.writeData op n) :=
  ⟨queueOk_carry rfl rfl rfl rfl rfl (fun _ => fetchOnBus_none hn), .refl, rfl, rfl, List.suffix_refl _⟩

theorem portRead_keeps (p : Word) (s : State) : Keeps s (portRead p s).2 := by
  obtain ⟨hc, hb, hq, hp, hm⟩ := portRead_fields p s
  exact .of_eq (by rw [hc]) (by rw [hc]) hq hb hp (by rw [hm]) (portRead_history p s)

theorem ioReadByte_keeps (p : Word) (s : State) : Keeps s (ioReadByte p s).2 := by
  refine ((biuTurn_keeps s).trans (Keeps.trans ?_ (record_keeps _ _))).trans (biuTurn_keeps _)
  have h := portRead_fields p ((biuTurn s).openCycle { kind := .ioRead, access := .code, addr := p.setWidth 20, data := none })
  exact heldCycle_keeps (portRead_keeps p _) (by rw [h.1]; simp) (by rw [h.1]; simp) h.2.2.1 _ _

theorem ioReadWord_keeps (p : Word) (s : State) : Keeps s (ioReadWord p s).2 := by
  simp only [ioReadWord]
  exact (ioReadByte_keeps p s).trans (ioReadByte_keeps _ _)

theorem portWrite_keeps (p : Word) (v : Byte) (s : State) : Keeps s (portWrite p v s) := by
  have h := portWrite_fields p v s
  exact .of_eq (by rw [h.1]) (by rw [h.1]) h.2.2.1 h.2.1 h.2.2.2.1 (by rw [h.2.2.2.2.1])
    h.2.2.2.2.2.2

theorem portWriteWaits_keeps (p : Word) (s : State) : Keeps s (portWriteWaits p s).2 := by
  obtain ⟨hc, hb, hq, hp, hm, hh⟩ := portWriteWaits_fields p s
  exact .of_eq (by rw [hc]) (by rw [hc]) hq hb hp (by rw [hm]) hh

theorem portData_keeps (p : Word) (v : Byte) (op : QueueOp) (s : State) (hn : s.biu.fetching = none) :
    Keeps s (portData p v op s) :=
  (((portWriteWaits_keeps p s).trans (writeData_keeps op _ _ (by rw [(portWriteWaits_fields p s).2.2.1]; exact hn))).trans
    (record_keeps _ _)).trans (portWrite_keeps p v _)

theorem ioWriteByte_keeps (p : Word) (v : Byte) (s : State) : Keeps s (ioWriteByte p v s) :=
  ((biuTurn_keeps s).trans (beginCycle_keeps _ _)).trans (carryWrite_keeps (fun u hn => portData_keeps p v .idle u hn) _ rfl)

theorem ioWriteWord_keeps (p v : Word) (s : State) : Keeps s (ioWriteWord p v s) := by
  simp only [ioWriteWord]
  exact (ioWriteByte_keeps p _ s).trans (ioWriteByte_keeps _ _ _)

/-! Operands. -/

theorem readLoc8_keeps (l : Loc8) (s : State) : Keeps s (readLoc8 l s).2 := by
  cases l with
  | reg r => exact .refl s
  | mem sr off => exact readByteAt_keeps _ _ _ s

theorem readLoc16_keeps (l : Loc16) (s : State) : Keeps s (readLoc16 l s).2 := by
  cases l with
  | reg r => exact .refl s
  | mem sr off => exact readWordAt_keeps _ _ _ s

theorem writeLoc8_keeps (l : Loc8) (v : Byte) (s : State) : Keeps s (writeLoc8 l v s) := by
  cases l with
  | reg r => exact setReg8_keeps r v s
  | mem sr off => exact writeByteAt_keeps (accessOf sr) (s.seg sr) off v s

theorem writeLoc16_keeps (l : Loc16) (v : Word) (s : State) : Keeps s (writeLoc16 l v s) := by
  cases l with
  | reg r => exact setReg16_keeps r v s
  | mem sr off => exact writeWordAt_keeps (accessOf sr) (s.seg sr) off v s

theorem readRM8_keeps (e : RM8) (s : State) : Keeps s (readRM8 e s).2 := readLoc8_keeps _ s

theorem readRM16_keeps (e : RM16) (s : State) : Keeps s (readRM16 e s).2 := readLoc16_keeps _ s

theorem writeRM8_keeps (e : RM8) (v : Byte) (s : State) : Keeps s (writeRM8 e v s) := writeLoc8_keeps _ v s

theorem writeRM16_keeps (e : RM16) (v : Word) (s : State) : Keeps s (writeRM16 e v s) := writeLoc16_keeps _ v s

theorem modifyRM8_keeps (e : RM8) (r : Byte → Byte) (g : Byte → Flags → Flags) (s : State) :
    Keeps s (modifyRM8 e (fun a t => (r a, t.mapFlags (g a))) s) := by
  simp only [modifyRM8]
  exact ((readLoc8_keeps _ s).trans (mapFlags_keeps _ _)).trans (writeLoc8_keeps _ _ _)

theorem modifyRM16_keeps (e : RM16) (r : Word → Word) (g : Word → Flags → Flags) (s : State) :
    Keeps s (modifyRM16 e (fun a t => (r a, t.mapFlags (g a))) s) := by
  simp only [modifyRM16]
  exact ((readLoc16_keeps _ s).trans (mapFlags_keeps _ _)).trans (writeLoc16_keeps _ _ _)

theorem notRM8_keeps (e : RM8) (s : State) : Keeps s (modifyRM8 e (fun a t => (~~~a, t)) s) := by
  simp only [modifyRM8]
  exact (readLoc8_keeps _ s).trans (writeLoc8_keeps _ _ _)

theorem notRM16_keeps (e : RM16) (s : State) : Keeps s (modifyRM16 e (fun a t => (~~~a, t)) s) := by
  simp only [modifyRM16]
  exact (readLoc16_keeps _ s).trans (writeLoc16_keeps _ _ _)

theorem readFarPtr_keeps (m : Mem) (s : State) : Keeps s (readFarPtr m s).2 := by
  simp only [readFarPtr]
  exact (readWordAt_keeps _ _ _ s).trans (readWordAt_keeps _ _ _ _)

/-! Stack, transfers, interrupts. -/

theorem push_keeps (v : Word) (s : State) : Keeps s (push v s) := by
  simp only [push]
  exact (setReg16_keeps _ _ s).trans (writeWordAt_keeps _ _ _ _ _)

theorem pop_keeps (s : State) : Keeps s (pop s).2 := by
  simp only [pop]
  exact (readWordAt_keeps _ _ _ s).trans (setReg16_keeps _ _ _)

theorem jumpNear_keeps (t : Word) (s : State) : Keeps s (jumpNear t s) :=
  ⟨fun _ => jumpNear_queueOk t s, by rw [(jumpNear_transfer t s).2.1]; exact .refl, by simp [jumpNear], by simp [jumpNear],
    flushQueue_history (s.setIp t)⟩

theorem jumpFar_keeps (sel off : Word) (s : State) : Keeps s (jumpFar sel off s) :=
  ⟨fun _ => jumpFar_queueOk sel off s, by rw [(jumpFar_transfer sel off s).2.1]; exact .refl, by simp [jumpFar],
    by simp [jumpFar], flushQueue_history ((s.setSeg .cs sel).setIp off)⟩

theorem pushJump_keeps (v : Word) (jump : Cpu → Cpu) (s : State) : Keeps s (pushJump v jump s) := by
  obtain ⟨_, hb, _, hf, f⟩ := pushJump_transfer v jump s
  refine ⟨fun _ => queueOk_empty hf.1 hf.2.1 hf.2.2.1, by rw [hb]; exact .storeWord .refl _ _ _, f.params, by rw [f.marks], ?_⟩
  let t := s.setReg16 .sp (s.reg16 .sp - 2)
  let a := lin (t.seg .ss) (t.reg16 .sp + 1)
  let u := beginWrite .stack a (hiByte v) (biuTurn (segWrite8 .ss (t.reg16 .sp) (loByte v) t))
  have h : t.history <:+ u.history :=
    (writeByteAt_history (accessOf .ss) (t.seg .ss) (t.reg16 .sp) (loByte v) t).trans
      ((biuTurn_history _).trans (beginCycle_history _ _))
  have k := jumpInWrite_history .stack a (hiByte v) jump (takeEuClocks u).1 (takeEuClocks u).2
  rw [takeEuClocks_history] at k
  exact h.trans k

theorem enter_keeps (n : Byte) (ret : Word) (s : State) : Keeps s (enter n ret s) := by
  unfold enter
  exact (((((((suspendFetch_keeps s).trans (push_keeps _ _)).trans (mapFlags_keeps _ _)).trans (push_keeps _ _)).trans
    (push_keeps _ _)).trans (readWordAt_keeps _ _ _ _)).trans (readWordAt_keeps _ _ _ _)).trans (jumpFar_keeps _ _ _)

theorem interruptReturn_keeps (s : State) : Keeps s (interruptReturn s) := by
  unfold interruptReturn
  exact (((((suspendFetch_keeps s).trans (pop_keeps _)).trans (pop_keeps _)).trans (pop_keeps _)).trans
    (setFlags_keeps _ _)).trans (jumpFar_keeps _ _ _)

theorem drawSixFlags_keeps (s : State) : Keeps s (drawSixFlags s) := by
  simp only [drawSixFlags, drawBit]
  exact ((((((bumpDraws_keeps s).trans (bumpDraws_keeps _)).trans (bumpDraws_keeps _)).trans (bumpDraws_keeps _)).trans
    (bumpDraws_keeps _)).trans (bumpDraws_keeps _)).trans (mapFlags_keeps _ _)

theorem divideError_keeps (s : State) : Keeps s (divideError s) := (drawSixFlags_keeps s).trans (enter_keeps _ _ _)

/-! Flags and the forms of the families. -/

theorem setLogicFlags_keeps {w : Nat} (r : BitVec w) (s : State) : Keeps s (setLogicFlags r s) :=
  (bumpDraws_keeps s).trans (mapFlags_keeps _ _)

theorem aluFlags_keeps {w : Nat} (op : AluOp) (a b : BitVec w) (s : State) : Keeps s (aluFlags op a b s) := by
  cases op <;> first | exact mapFlags_keeps _ s | exact setLogicFlags_keeps _ s

theorem aluRM8_keeps (op : AluOp) (e : RM8) (b : Byte) (s : State) : Keeps s (aluRM8 op e b s) := by
  simp only [aluRM8, alu]
  have h := (readLoc8_keeps (locate8 e s) s).trans (aluFlags_keeps op (readLoc8 (locate8 e s) s).1 b _)
  split
  · exact h
  · exact h.trans (writeLoc8_keeps _ _ _)

theorem aluRM16_keeps (op : AluOp) (e : RM16) (b : Word) (s : State) : Keeps s (aluRM16 op e b s) := by
  simp only [aluRM16, alu]
  have h := (readLoc16_keeps (locate16 e s) s).trans (aluFlags_keeps op (readLoc16 (locate16 e s) s).1 b _)
  split
  · exact h
  · exact h.trans (writeLoc16_keeps _ _ _)

theorem aluReg8_keeps (op : AluOp) (g : Reg8) (e : RM8) (s : State) : Keeps s (aluReg8 op g e s) := by
  simp only [aluReg8, alu]
  have h := (readRM8_keeps e s).trans (aluFlags_keeps op ((readRM8 e s).2.reg8 g) (readRM8 e s).1 _)
  split
  · exact h
  · exact h.trans (setReg8_keeps _ _ _)

theorem aluReg16_keeps (op : AluOp) (g : Reg16) (e : RM16) (s : State) : Keeps s (aluReg16 op g e s) := by
  simp only [aluReg16, alu]
  have h := (readRM16_keeps e s).trans (aluFlags_keeps op ((readRM16 e s).2.reg16 g) (readRM16 e s).1 _)
  split
  · exact h
  · exact h.trans (setReg16_keeps _ _ _)

theorem test8_keeps (e : RM8) (b : Byte) (s : State) : Keeps s (test8 e b s) :=
  (readRM8_keeps e s).trans (setLogicFlags_keeps _ _)

theorem test16_keeps (e : RM16) (b : Word) (s : State) : Keeps s (test16 e b s) :=
  (readRM16_keeps e s).trans (setLogicFlags_keeps _ _)

theorem setMulFlags_keeps (v : Bool) (s : State) : Keeps s (setMulFlags v s) := by
  simp only [setMulFlags, drawBit]
  exact ((((bumpDraws_keeps s).trans (bumpDraws_keeps _)).trans (bumpDraws_keeps _)).trans (bumpDraws_keeps _)).trans
    (mapFlags_keeps _ _)

theorem mulByte_keeps (v : Byte) (s : State) : Keeps s (mulByte v s) := (setMulFlags_keeps _ s).trans (setReg16_keeps _ _ _)

theorem mulWord_keeps (v : Word) (s : State) : Keeps s (mulWord v s) :=
  ((setMulFlags_keeps _ s).trans (setReg16_keeps _ _ _)).trans (setReg16_keeps _ _ _)

theorem imulByte_keeps (v : Byte) (s : State) : Keeps s (imulByte v s) := (setMulFlags_keeps _ s).trans (setReg16_keeps _ _ _)

theorem imulWord_keeps (v : Word) (s : State) : Keeps s (imulWord v s) :=
  ((setMulFlags_keeps _ s).trans (setReg16_keeps _ _ _)).trans (setReg16_keeps _ _ _)

theorem divByte_keeps (v : Byte) (s : State) : Keeps s (divByte v s) := by
  unfold divByte
  split
  · exact divideError_keeps s
  · exact (drawSixFlags_keeps s).trans (setReg16_keeps _ _ _)

theorem divWord_keeps (v : Word) (s : State) : Keeps s (divWord v s) := by
  unfold divWord
  split
  · exact divideError_keeps s
  · exact ((drawSixFlags_keeps s).trans (setReg16_keeps _ _ _)).trans (setReg16_keeps _ _ _)

theorem idivByte_keeps (v : Byte) (s : State) : Keeps s (idivByte v s) := by
  unfold idivByte
  split
  · exact divideError_keeps s
  · exact (drawSixFlags_keeps s).trans (setReg16_keeps _ _ _)

theorem idivWord_keeps (v : Word) (s : State) : Keeps s (idivWord v s) := by
  unfold idivWord
  split
  · exact divideError_keeps s
  · exact ((drawSixFlags_keeps s).trans (setReg16_keeps _ _ _)).trans (setReg16_keeps _ _ _)

theorem decimalAdjust_keeps (r : Byte) (s : State) : Keeps s (decimalAdjust r s) :=
  ((bumpDraws_keeps s).trans (mapFlags_keeps _ _)).trans (setReg8_keeps _ _ _)

theorem asciiAdjust_keeps (al ah : Byte) (s : State) : Keeps s (asciiAdjust al ah s) := by
  simp only [asciiAdjust, drawBit]
  exact (((((bumpDraws_keeps s).trans (bumpDraws_keeps _)).trans (bumpDraws_keeps _)).trans (bumpDraws_keeps _)).trans
    (mapFlags_keeps _ _)).trans (setReg16_keeps _ _ _)

theorem asciiFlags_keeps (r : Byte) (s : State) : Keeps s (asciiFlags r s) := by
  simp only [asciiFlags, drawBit]
  exact (((bumpDraws_keeps s).trans (bumpDraws_keeps _)).trans (bumpDraws_keeps _)).trans (mapFlags_keeps _ _)

theorem aam_keeps (i : Byte) (s : State) : Keeps s (aam i s) := by
  unfold aam
  split
  · exact divideError_keeps s
  · exact (asciiFlags_keeps _ s).trans (setReg16_keeps _ _ _)

theorem aad_keeps (i : Byte) (s : State) : Keeps s (aad i s) := (asciiFlags_keeps _ s).trans (setReg16_keeps _ _ _)

theorem rewriteByteAt_keeps (b : Bool) (access : AccessType) (base off : Word) (v : Byte) (s : State) :
    Keeps s (rewriteByteAt b access base off v s) := by
  unfold rewriteByteAt
  refine ((((biuTurn_keeps s).trans (settle_keeps _)).trans (takeEuClocks_keeps _)).trans ?_).trans (euClocks_keeps _ _)
  exact ⟨queueOk_carry rfl rfl rfl rfl rfl (fun _ => fetchOnBus_none (by simp)), .refl, rfl, rfl, by cases b <;> simp⟩

theorem rewriteLoc8_keeps (l : Loc8) (v : Byte) (s : State) : Keeps s (rewriteLoc8 l v s) := by
  unfold rewriteLoc8
  split
  · exact .refl s
  · exact (bumpDraws_keeps s).trans (rewriteByteAt_keeps ..)

theorem rewriteLoc16_keeps (l : Loc16) (v : Word) (s : State) : Keeps s (rewriteLoc16 l v s) := by
  unfold rewriteLoc16
  split
  · exact .refl s
  · exact ((bumpDraws_keeps s).trans (rewriteByteAt_keeps ..)).trans (rewriteByteAt_keeps ..)

theorem shift_keeps {w : Nat} (op : ShiftOp) (n : Nat) (x : BitVec w) (s : State) : Keeps s (shift op n x s).2 := by
  simp only [shift, drawBit]
  exact ((bumpDraws_keeps s).trans (bumpDraws_keeps _)).trans (mapFlags_keeps _ _)

theorem shiftRM8_keeps (op : ShiftOp) (n : Nat) (e : RM8) (s : State) : Keeps s (shiftRM8 op n e s) := by
  simp only [shiftRM8]
  split
  · exact (readLoc8_keeps _ s).trans (rewriteLoc8_keeps ..)
  · exact ((readLoc8_keeps _ s).trans (shift_keeps ..)).trans (writeLoc8_keeps ..)

theorem shiftRM16_keeps (op : ShiftOp) (n : Nat) (e : RM16) (s : State) : Keeps s (shiftRM16 op n e s) := by
  simp only [shiftRM16]
  split
  · exact (readLoc16_keeps _ s).trans (rewriteLoc16_keeps ..)
  · exact ((readLoc16_keeps _ s).trans (shift_keeps ..)).trans (writeLoc16_keeps ..)

theorem setmoRM8_keeps (n : Nat) (e : RM8) (s : State) : Keeps s (setmoRM8 n e s) := by
  simp only [setmoRM8]
  split
  · exact (readLoc8_keeps _ s).trans (rewriteLoc8_keeps ..)
  · exact ((readLoc8_keeps _ s).trans (mapFlags_keeps ..)).trans (writeLoc8_keeps ..)

theorem setmoRM16_keeps (n : Nat) (e : RM16) (s : State) : Keeps s (setmoRM16 n e s) := by
  simp only [setmoRM16]
  split
  · exact (readLoc16_keeps _ s).trans (rewriteLoc16_keeps ..)
  · exact ((readLoc16_keeps _ s).trans (mapFlags_keeps ..)).trans (writeLoc16_keeps ..)

theorem loadReg8_keeps (g : Reg8) (e : RM8) (s : State) : Keeps s (loadReg8 g e s) :=
  (readRM8_keeps e s).trans (setReg8_keeps ..)

theorem loadReg16_keeps (g : Reg16) (e : RM16) (s : State) : Keeps s (loadReg16 g e s) :=
  (readRM16_keeps e s).trans (setReg16_keeps ..)

theorem loadSeg_keeps (r : Sreg) (e : RM16) (s : State) (h : r ≠ .cs) : Keeps s (loadSeg r e s) :=
  (readRM16_keeps e s).trans (setSeg_keeps _ _ _ h)

theorem pushReg_keeps (r : Reg16) (s : State) : Keeps s (pushReg r s) := push_keeps _ s

theorem pushOperand_keeps (e : RM16) (s : State) : Keeps s (pushOperand e s) := by
  cases e with
  | reg r => exact pushReg_keeps r s
  | mem m => exact (readRM16_keeps (.mem m) s).trans (push_keeps _ _)

theorem popReg_keeps (r : Reg16) (s : State) : Keeps s (popReg r s) := (pop_keeps s).trans (setReg16_keeps ..)

theorem popOperand_keeps (e : RM16) (s : State) : Keeps s (popOperand e s) := (pop_keeps s).trans (writeRM16_keeps ..)

theorem popSeg_keeps (r : Sreg) (s : State) (h : r ≠ .cs) : Keeps s (popSeg r s) := (pop_keeps s).trans (setSeg_keeps _ _ _ h)

theorem popf_keeps (s : State) : Keeps s ((pop s).2.setFlags (flagsOfWord (pop s).1)) :=
  (pop_keeps s).trans (setFlags_keeps ..)

theorem exchange8_keeps (e : RM8) (g : Reg8) (s : State) : Keeps s (exchange8 e g s) := by
  simp only [exchange8]
  exact ((readLoc8_keeps _ s).trans (setReg8_keeps ..)).trans (writeLoc8_keeps ..)

theorem exchange16_keeps (e : RM16) (g : Reg16) (s : State) : Keeps s (exchange16 e g s) := by
  simp only [exchange16]
  exact ((readLoc16_keeps _ s).trans (setReg16_keeps ..)).trans (writeLoc16_keeps ..)

theorem inByte_keeps (p : Word) (s : State) : Keeps s (inByte p s) := (ioReadByte_keeps p s).trans (setReg8_keeps ..)

theorem inWord_keeps (p : Word) (s : State) : Keeps s (inWord p s) := (ioReadWord_keeps p s).trans (setReg16_keeps ..)

theorem loadFarPtr_keeps (r : Sreg) (g : Reg16) (m : Mem) (s : State) (h : r ≠ .cs) : Keeps s (loadFarPtr r g m s) :=
  ((readFarPtr_keeps m s).trans (setReg16_keeps ..)).trans (setSeg_keeps _ _ _ h)

/-! Strings. -/

theorem readElem_keeps (wide : Bool) (r : Sreg) (off : Word) (s : State) : Keeps s (readElem wide r off s).2 := by
  cases wide
  · exact readByteAt_keeps _ _ _ s
  · exact readWordAt_keeps _ _ _ s

theorem writeElem_keeps (wide : Bool) (r : Sreg) (off v : Word) (s : State) : Keeps s (writeElem wide r off v s) := by
  simp only [writeElem, segWrite8, segWrite16]
  split
  · exact writeWordAt_keeps ..
  · exact writeByteAt_keeps ..

theorem stepIndex_keeps (r : Reg16) (wide : Bool) (s : State) : Keeps s (stepIndex r wide s) := setReg16_keeps ..

theorem writeAcc_keeps (wide : Bool) (v : Word) (s : State) : Keeps s (writeAcc wide v s) := by
  cases wide
  · exact setReg8_keeps ..
  · exact setReg16_keeps ..

theorem stringIteration_keeps (op : StringOp) (wide : Bool) (ovr : Option Sreg) (s : State) :
    Keeps s (stringIteration op wide ovr s) := by
  cases op <;> simp only [stringIteration]
  · exact (((readElem_keeps ..).trans (writeElem_keeps ..)).trans (stepIndex_keeps ..)).trans (stepIndex_keeps ..)
  · exact ((((readElem_keeps ..).trans (readElem_keeps ..)).trans (mapFlags_keeps ..)).trans (stepIndex_keeps ..)).trans
      (stepIndex_keeps ..)
  · exact ((readElem_keeps ..).trans (mapFlags_keeps ..)).trans (stepIndex_keeps ..)
  · exact ((readElem_keeps ..).trans (writeAcc_keeps ..)).trans (stepIndex_keeps ..)
  · exact (writeElem_keeps ..).trans (stepIndex_keeps ..)

theorem repIteration_keeps (r : RepRun) (s : State) : Keeps s (repIteration r s) := by
  simp only [repIteration]
  exact ((stringIteration_keeps ..).trans (setReg16_keeps ..)).trans (setRepRun_keeps ..)

theorem stringInstr_keeps (op : StringOp) (wide : Bool) (s : State) : Keeps s (stringInstr op wide s) := by
  unfold stringInstr
  split
  · exact stringIteration_keeps ..
  · split
    · exact .refl s
    · exact repIteration_keeps ..

/-! Control transfer and processor control. -/

theorem jumpIf_keeps (b : Bool) (rel : Byte) (s : State) : Keeps s (jumpIf b rel s) := by
  unfold jumpIf
  split
  · exact jumpNear_keeps _ s
  · exact .refl s

theorem callNear_keeps (t : Word) (s : State) : Keeps s (callNear t s) := by
  simp only [callNear]
  exact (suspendFetch_keeps s).trans (pushJump_keeps ..)

theorem callFar_keeps (sel off : Word) (s : State) : Keeps s (callFar sel off s) := by
  simp only [callFar]
  exact ((suspendFetch_keeps s).trans (push_keeps ..)).trans (pushJump_keeps ..)

theorem retNear_keeps (n : Word) (s : State) : Keeps s (retNear n s) := by
  simp only [retNear, releaseStack]
  exact (((suspendFetch_keeps s).trans (pop_keeps ..)).trans (setReg16_keeps ..)).trans (jumpNear_keeps ..)

theorem retFar_keeps (n : Word) (s : State) : Keeps s (retFar n s) := by
  simp only [retFar, releaseStack]
  exact ((((suspendFetch_keeps s).trans (pop_keeps ..)).trans (pop_keeps ..)).trans (setReg16_keeps ..)).trans (jumpFar_keeps ..)

theorem loopIf_keeps (c : Bool) (rel : Byte) (s : State) : Keeps s (loopIf c rel s) := by
  simp only [loopIf, decCx]
  exact (setReg16_keeps ..).trans (jumpIf_keeps ..)

theorem into_keeps (s : State) : Keeps s (if s.cpu.flags.ovf then enter 4 s.cpu.ip s else s) := by
  split
  · exact enter_keeps _ _ s
  · exact .refl s

theorem waitTest_keeps (s : State) : Keeps s (waitTest s) := by
  unfold waitTest
  split
  · exact .refl s
  · exact jumpNear_keeps _ s

theorem halt_keeps (s : State) : Keeps s (halt s) := by
  have h : Keeps s (suspendFetch (s.mapCpu fun c => { c with halted := true })) :=
    ⟨queueOk_carry rfl rfl rfl rfl rfl id, .refl, rfl, rfl, List.suffix_refl _⟩
  exact (((h.trans (bumpDraws_keeps _)).trans (bumpDraws_keeps _)).trans
    (heldCycle_keeps (.refl _) (by simp) (by simp) rfl none 0)).trans (clock_keeps ..)

theorem escape_keeps (e : RM16) (s : State) : Keeps s (escape e s) := by
  cases e with
  | reg r => exact .refl s
  | mem m => exact readRM16_keeps (.mem m) s

theorem overridePrefix_keeps (r : Sreg) (s : State) : Keeps s (overridePrefix r s) := .of_eq rfl rfl rfl rfl rfl rfl rfl

theorem lockPrefix_keeps (s : State) : Keeps s (lockPrefix s) := .of_eq rfl rfl rfl rfl rfl rfl rfl

theorem repPrefix_keeps (k : RepKind) (s : State) : Keeps s (repPrefix k s) := .of_eq rfl rfl rfl rfl rfl rfl rfl

/-! Every instruction. -/

/-- If it is a next state, the outcome keeps what meanings keep. -/
def OutcomeKeeps (s : State) (r : StepResult) : Prop := ∀ t, r = .next t → Keeps s t

theorem OutcomeKeeps.next {s t : State} (h : Keeps s t) : OutcomeKeeps s (.next t) := fun u k => by cases k; exact h

theorem OutcomeKeeps.refused (s : State) (r : Refusal) : OutcomeKeeps s (.refused r) := fun _ k => by cases k

theorem OutcomeKeeps.ofAlias {s t : State} {op : Byte} (h : Keeps s t) : OutcomeKeeps s (aliasOf op s t) := by
  unfold aliasOf
  split
  · exact .next h
  · exact .refused _ _

theorem exec_outcomeKeeps (i : Instr) (s : State) : OutcomeKeeps s (exec i s) := by
  cases i with
  | addEbGb _ _ => exact .next (aluRM8_keeps ..)
  | addEvGv _ _ => exact .next (aluRM16_keeps ..)
  | addGbEb _ _ => exact .next (aluReg8_keeps ..)
  | addGvEv _ _ => exact .next (aluReg16_keeps ..)
  | addAlIb _ => exact .next (aluRM8_keeps ..)
  | addAxIw _ => exact .next (aluRM16_keeps ..)
  | orEbGb _ _ => exact .next (aluRM8_keeps ..)
  | orEvGv _ _ => exact .next (aluRM16_keeps ..)
  | orGbEb _ _ => exact .next (aluReg8_keeps ..)
  | orGvEv _ _ => exact .next (aluReg16_keeps ..)
  | orAlIb _ => exact .next (aluRM8_keeps ..)
  | orAxIw _ => exact .next (aluRM16_keeps ..)
  | adcEbGb _ _ => exact .next (aluRM8_keeps ..)
  | adcEvGv _ _ => exact .next (aluRM16_keeps ..)
  | adcGbEb _ _ => exact .next (aluReg8_keeps ..)
  | adcGvEv _ _ => exact .next (aluReg16_keeps ..)
  | adcAlIb _ => exact .next (aluRM8_keeps ..)
  | adcAxIw _ => exact .next (aluRM16_keeps ..)
  | sbbEbGb _ _ => exact .next (aluRM8_keeps ..)
  | sbbEvGv _ _ => exact .next (aluRM16_keeps ..)
  | sbbGbEb _ _ => exact .next (aluReg8_keeps ..)
  | sbbGvEv _ _ => exact .next (aluReg16_keeps ..)
  | sbbAlIb _ => exact .next (aluRM8_keeps ..)
  | sbbAxIw _ => exact .next (aluRM16_keeps ..)
  | andEbGb _ _ => exact .next (aluRM8_keeps ..)
  | andEvGv _ _ => exact .next (aluRM16_keeps ..)
  | andGbEb _ _ => exact .next (aluReg8_keeps ..)
  | andGvEv _ _ => exact .next (aluReg16_keeps ..)
  | andAlIb _ => exact .next (aluRM8_keeps ..)
  | andAxIw _ => exact .next (aluRM16_keeps ..)
  | subEbGb _ _ => exact .next (aluRM8_keeps ..)
  | subEvGv _ _ => exact .next (aluRM16_keeps ..)
  | subGbEb _ _ => exact .next (aluReg8_keeps ..)
  | subGvEv _ _ => exact .next (aluReg16_keeps ..)
  | subAlIb _ => exact .next (aluRM8_keeps ..)
  | subAxIw _ => exact .next (aluRM16_keeps ..)
  | xorEbGb _ _ => exact .next (aluRM8_keeps ..)
  | xorEvGv _ _ => exact .next (aluRM16_keeps ..)
  | xorGbEb _ _ => exact .next (aluReg8_keeps ..)
  | xorGvEv _ _ => exact .next (aluReg16_keeps ..)
  | xorAlIb _ => exact .next (aluRM8_keeps ..)
  | xorAxIw _ => exact .next (aluRM16_keeps ..)
  | cmpEbGb _ _ => exact .next (aluRM8_keeps ..)
  | cmpEvGv _ _ => exact .next (aluRM16_keeps ..)
  | cmpGbEb _ _ => exact .next (aluReg8_keeps ..)
  | cmpGvEv _ _ => exact .next (aluReg16_keeps ..)
  | cmpAlIb _ => exact .next (aluRM8_keeps ..)
  | cmpAxIw _ => exact .next (aluRM16_keeps ..)
  | incR16 _ => exact .next (modifyRM16_keeps ..)
  | decR16 _ => exact .next (modifyRM16_keeps ..)
  | pushR16 _ => exact .next (pushReg_keeps ..)
  | popR16 _ => exact .next (popReg_keeps ..)
  | jo _ => exact .next (jumpIf_keeps ..)
  | jno _ => exact .next (jumpIf_keeps ..)
  | jb _ => exact .next (jumpIf_keeps ..)
  | jnb _ => exact .next (jumpIf_keeps ..)
  | jz _ => exact .next (jumpIf_keeps ..)
  | jnz _ => exact .next (jumpIf_keeps ..)
  | jbe _ => exact .next (jumpIf_keeps ..)
  | ja _ => exact .next (jumpIf_keeps ..)
  | js _ => exact .next (jumpIf_keeps ..)
  | jns _ => exact .next (jumpIf_keeps ..)
  | jp _ => exact .next (jumpIf_keeps ..)
  | jnp _ => exact .next (jumpIf_keeps ..)
  | jl _ => exact .next (jumpIf_keeps ..)
  | jge _ => exact .next (jumpIf_keeps ..)
  | jle _ => exact .next (jumpIf_keeps ..)
  | jg _ => exact .next (jumpIf_keeps ..)
  | jccAlias _ _ => exact .ofAlias (jumpIf_keeps ..)
  | addEbIb _ _ => exact .next (aluRM8_keeps ..)
  | orEbIb _ _ => exact .next (aluRM8_keeps ..)
  | adcEbIb _ _ => exact .next (aluRM8_keeps ..)
  | sbbEbIb _ _ => exact .next (aluRM8_keeps ..)
  | andEbIb _ _ => exact .next (aluRM8_keeps ..)
  | subEbIb _ _ => exact .next (aluRM8_keeps ..)
  | xorEbIb _ _ => exact .next (aluRM8_keeps ..)
  | cmpEbIb _ _ => exact .next (aluRM8_keeps ..)
  | addEvIw _ _ => exact .next (aluRM16_keeps ..)
  | orEvIw _ _ => exact .next (aluRM16_keeps ..)
  | adcEvIw _ _ => exact .next (aluRM16_keeps ..)
  | sbbEvIw _ _ => exact .next (aluRM16_keeps ..)
  | andEvIw _ _ => exact .next (aluRM16_keeps ..)
  | subEvIw _ _ => exact .next (aluRM16_keeps ..)
  | xorEvIw _ _ => exact .next (aluRM16_keeps ..)
  | cmpEvIw _ _ => exact .next (aluRM16_keeps ..)
  | addEbIbAlias _ _ => exact .ofAlias (aluRM8_keeps ..)
  | orEbIbAlias _ _ => exact .ofAlias (aluRM8_keeps ..)
  | adcEbIbAlias _ _ => exact .ofAlias (aluRM8_keeps ..)
  | sbbEbIbAlias _ _ => exact .ofAlias (aluRM8_keeps ..)
  | andEbIbAlias _ _ => exact .ofAlias (aluRM8_keeps ..)
  | subEbIbAlias _ _ => exact .ofAlias (aluRM8_keeps ..)
  | xorEbIbAlias _ _ => exact .ofAlias (aluRM8_keeps ..)
  | cmpEbIbAlias _ _ => exact .ofAlias (aluRM8_keeps ..)
  | addEvIbSx _ _ => exact .next (aluRM16_keeps ..)
  | orEvIbSx _ _ => exact .next (aluRM16_keeps ..)
  | adcEvIbSx _ _ => exact .next (aluRM16_keeps ..)
  | sbbEvIbSx _ _ => exact .next (aluRM16_keeps ..)
  | andEvIbSx _ _ => exact .next (aluRM16_keeps ..)
  | subEvIbSx _ _ => exact .next (aluRM16_keeps ..)
  | xorEvIbSx _ _ => exact .next (aluRM16_keeps ..)
  | cmpEvIbSx _ _ => exact .next (aluRM16_keeps ..)
  | testEbGb _ _ => exact .next (test8_keeps ..)
  | testEvGv _ _ => exact .next (test16_keeps ..)
  | xchgEbGb _ _ => exact .next (exchange8_keeps ..)
  | xchgEvGv _ _ => exact .next (exchange16_keeps ..)
  | movEbGb _ _ => exact .next (writeRM8_keeps ..)
  | movEvGv _ _ => exact .next (writeRM16_keeps ..)
  | movGbEb _ _ => exact .next (loadReg8_keeps ..)
  | movGvEv _ _ => exact .next (loadReg16_keeps ..)
  | movEwSw _ _ => exact .next (writeRM16_keeps ..)
  | movEwSwAlias _ _ => exact .ofAlias (writeRM16_keeps ..)
  | leaGvM _ _ => exact .next (setReg16_keeps ..)
  | leaGvRegRefused _ _ => exact .refused _ _
  | movEsEw _ => exact .next (loadSeg_keeps _ _ _ (by decide))
  | movCsEwRefused1 _ => exact .refused _ _
  | movSsEw _ => exact .next (loadSeg_keeps _ _ _ (by decide))
  | movDsEw _ => exact .next (loadSeg_keeps _ _ _ (by decide))
  | movEsEwAlias _ => exact .ofAlias (loadSeg_keeps _ _ _ (by decide))
  | movCsEwRefused5 _ => exact .refused _ _
  | movSsEwAlias _ => exact .ofAlias (loadSeg_keeps _ _ _ (by decide))
  | movDsEwAlias _ => exact .ofAlias (loadSeg_keeps _ _ _ (by decide))
  | popEv _ => exact .next (popOperand_keeps ..)
  | pop8FRefused _ _ => exact .refused _ _
  | xchgAxR16 _ => exact .next ((setReg16_keeps ..).trans (setReg16_keeps ..))
  | callPtr _ _ => exact .next (callFar_keeps ..)
  | movAlMoffs _ => exact .next ((readByteAt_keeps ..).trans (setReg8_keeps ..))
  | movAxMoffs _ => exact .next ((readWordAt_keeps ..).trans (setReg16_keeps ..))
  | movMoffsAl _ => exact .next (writeByteAt_keeps ..)
  | movMoffsAx _ => exact .next (writeWordAt_keeps ..)
  | testAlIb _ => exact .next (test8_keeps ..)
  | testAxIw _ => exact .next (test16_keeps ..)
  | movR8Ib _ _ => exact .next (setReg8_keeps ..)
  | movR16Iw _ _ => exact .next (setReg16_keeps ..)
  | retIwAlias _ => exact .ofAlias (retNear_keeps ..)
  | retIw _ => exact .next (retNear_keeps ..)
  | retfIwAlias _ => exact .ofAlias (retFar_keeps ..)
  | retfIw _ => exact .next (retFar_keeps ..)
  | intIb _ => exact .next (enter_keeps ..)
  | lesGvMp _ _ => exact .next (loadFarPtr_keeps _ _ _ _ (by decide))
  | lesGvRegRefused _ _ => exact .refused _ _
  | ldsGvMp _ _ => exact .next (loadFarPtr_keeps _ _ _ _ (by decide))
  | ldsGvRegRefused _ _ => exact .refused _ _
  | movEbIb _ _ => exact .next (writeRM8_keeps ..)
  | movC6Refused _ _ _ => exact .refused _ _
  | movEvIw _ _ => exact .next (writeRM16_keeps ..)
  | movC7Refused _ _ _ => exact .refused _ _
  | rolEb1 _ => exact .next (shiftRM8_keeps ..)
  | rorEb1 _ => exact .next (shiftRM8_keeps ..)
  | rclEb1 _ => exact .next (shiftRM8_keeps ..)
  | rcrEb1 _ => exact .next (shiftRM8_keeps ..)
  | shlEb1 _ => exact .next (shiftRM8_keeps ..)
  | shrEb1 _ => exact .next (shiftRM8_keeps ..)
  | setmoEb1 _ => exact .ofAlias (setmoRM8_keeps ..)
  | sarEb1 _ => exact .next (shiftRM8_keeps ..)
  | rolEv1 _ => exact .next (shiftRM16_keeps ..)
  | rorEv1 _ => exact .next (shiftRM16_keeps ..)
  | rclEv1 _ => exact .next (shiftRM16_keeps ..)
  | rcrEv1 _ => exact .next (shiftRM16_keeps ..)
  | shlEv1 _ => exact .next (shiftRM16_keeps ..)
  | shrEv1 _ => exact .next (shiftRM16_keeps ..)
  | setmoEv1 _ => exact .ofAlias (setmoRM16_keeps ..)
  | sarEv1 _ => exact .next (shiftRM16_keeps ..)
  | rolEbCl _ => exact .next (shiftRM8_keeps ..)
  | rorEbCl _ => exact .next (shiftRM8_keeps ..)
  | rclEbCl _ => exact .next (shiftRM8_keeps ..)
  | rcrEbCl _ => exact .next (shiftRM8_keeps ..)
  | shlEbCl _ => exact .next (shiftRM8_keeps ..)
  | shrEbCl _ => exact .next (shiftRM8_keeps ..)
  | setmocEbCl _ => exact .ofAlias (setmoRM8_keeps ..)
  | sarEbCl _ => exact .next (shiftRM8_keeps ..)
  | rolEvCl _ => exact .next (shiftRM16_keeps ..)
  | rorEvCl _ => exact .next (shiftRM16_keeps ..)
  | rclEvCl _ => exact .next (shiftRM16_keeps ..)
  | rcrEvCl _ => exact .next (shiftRM16_keeps ..)
  | shlEvCl _ => exact .next (shiftRM16_keeps ..)
  | shrEvCl _ => exact .next (shiftRM16_keeps ..)
  | setmocEvCl _ => exact .ofAlias (setmoRM16_keeps ..)
  | sarEvCl _ => exact .next (shiftRM16_keeps ..)
  | aamIb _ => exact .next (aam_keeps ..)
  | aadIb _ => exact .next (aad_keeps ..)
  | esc _ _ => exact .next (escape_keeps ..)
  | loopnz _ => exact .next (loopIf_keeps ..)
  | loopz _ => exact .next (loopIf_keeps ..)
  | loop _ => exact .next (loopIf_keeps ..)
  | jcxz _ => exact .next (jumpIf_keeps ..)
  | inAlIb _ => exact .next (inByte_keeps ..)
  | inAxIb _ => exact .next (inWord_keeps ..)
  | outIbAl _ => exact .next (ioWriteByte_keeps ..)
  | outIbAx _ => exact .next (ioWriteWord_keeps ..)
  | callRel16 _ => exact .next (callNear_keeps ..)
  | jmpRel16 _ => exact .next (jumpNear_keeps ..)
  | jmpPtr _ _ => exact .next (jumpFar_keeps ..)
  | jmpRel8 _ => exact .next (jumpNear_keeps ..)
  | testEbIb _ _ => exact .next (test8_keeps ..)
  | testEbIbAlias _ _ => exact .ofAlias (test8_keeps ..)
  | notEb _ => exact .next (notRM8_keeps _ s)
  | negEb _ => exact .next (modifyRM8_keeps ..)
  | mulEb _ => exact .next ((readRM8_keeps ..).trans (mulByte_keeps ..))
  | imulEb _ => exact .next ((readRM8_keeps ..).trans (imulByte_keeps ..))
  | divEb _ => exact .next ((readRM8_keeps ..).trans (divByte_keeps ..))
  | idivEb _ => exact .next ((readRM8_keeps ..).trans (idivByte_keeps ..))
  | testEvIw _ _ => exact .next (test16_keeps ..)
  | testEvIwAlias _ _ => exact .ofAlias (test16_keeps ..)
  | notEv _ => exact .next (notRM16_keeps _ s)
  | negEv _ => exact .next (modifyRM16_keeps ..)
  | mulEv _ => exact .next ((readRM16_keeps ..).trans (mulWord_keeps ..))
  | imulEv _ => exact .next ((readRM16_keeps ..).trans (imulWord_keeps ..))
  | divEv _ => exact .next ((readRM16_keeps ..).trans (divWord_keeps ..))
  | idivEv _ => exact .next ((readRM16_keeps ..).trans (idivWord_keeps ..))
  | incEb _ => exact .next (modifyRM8_keeps ..)
  | decEb _ => exact .next (modifyRM8_keeps ..)
  | feRefused _ _ => exact .refused _ _
  | incEv _ => exact .next (modifyRM16_keeps ..)
  | decEv _ => exact .next (modifyRM16_keeps ..)
  | callEv _ => exact .next ((readRM16_keeps ..).trans (callNear_keeps ..))
  | callMp _ => exact .next ((readFarPtr_keeps ..).trans (callFar_keeps ..))
  | jmpEv _ => exact .next ((readRM16_keeps ..).trans (jumpNear_keeps ..))
  | jmpMp _ => exact .next ((readFarPtr_keeps ..).trans (jumpFar_keeps ..))
  | pushEv _ => exact .next (pushOperand_keeps ..)
  | callMpRegRefused _ => exact .refused _ _
  | jmpMpRegRefused _ => exact .refused _ _
  | ff7Refused _ => exact .refused _ _
  | pushEs => exact .next (push_keeps ..)
  | popEs => exact .next (popSeg_keeps _ _ (by decide))
  | pushCs => exact .next (push_keeps ..)
  | popCsRefused => exact .refused _ _
  | pushSs => exact .next (push_keeps ..)
  | popSs => exact .next (popSeg_keeps _ _ (by decide))
  | pushDs => exact .next (push_keeps ..)
  | popDs => exact .next (popSeg_keeps _ _ (by decide))
  | prefixEs => exact .next (overridePrefix_keeps ..)
  | prefixCs => exact .next (overridePrefix_keeps ..)
  | prefixSs => exact .next (overridePrefix_keeps ..)
  | prefixDs => exact .next (overridePrefix_keeps ..)
  | daa => exact .next (decimalAdjust_keeps ..)
  | das => exact .next (decimalAdjust_keeps ..)
  | aaa => exact .next (asciiAdjust_keeps ..)
  | aas => exact .next (asciiAdjust_keeps ..)
  | nop => exact .next (Keeps.refl s)
  | cbw => exact .next (setReg16_keeps ..)
  | cwd => exact .next (setReg16_keeps ..)
  | wait => exact .next (waitTest_keeps ..)
  | pushf => exact .next (push_keeps ..)
  | popf => exact .next (popf_keeps s)
  | sahf => exact .next (mapFlags_keeps ..)
  | lahf => exact .next (setReg8_keeps ..)
  | movsb => exact .next (stringInstr_keeps ..)
  | movsw => exact .next (stringInstr_keeps ..)
  | cmpsb => exact .next (stringInstr_keeps ..)
  | cmpsw => exact .next (stringInstr_keeps ..)
  | stosb => exact .next (stringInstr_keeps ..)
  | stosw => exact .next (stringInstr_keeps ..)
  | lodsb => exact .next (stringInstr_keeps ..)
  | lodsw => exact .next (stringInstr_keeps ..)
  | scasb => exact .next (stringInstr_keeps ..)
  | scasw => exact .next (stringInstr_keeps ..)
  | retAlias => exact .ofAlias (retNear_keeps ..)
  | ret => exact .next (retNear_keeps ..)
  | retfAlias => exact .ofAlias (retFar_keeps ..)
  | retf => exact .next (retFar_keeps ..)
  | int3 => exact .next (enter_keeps ..)
  | into => exact .next (into_keeps s)
  | iret => exact .next (interruptReturn_keeps ..)
  | salc => exact .ofAlias (setReg8_keeps ..)
  | xlat => exact .next ((readByteAt_keeps ..).trans (setReg8_keeps ..))
  | inAlDx => exact .next (inByte_keeps ..)
  | inAxDx => exact .next (inWord_keeps ..)
  | outDxAl => exact .next (ioWriteByte_keeps ..)
  | outDxAx => exact .next (ioWriteWord_keeps ..)
  | prefixLock => exact .next (lockPrefix_keeps ..)
  | prefixRepne => exact .next (repPrefix_keeps ..)
  | prefixRep => exact .next (repPrefix_keeps ..)
  | hlt => exact .next (halt_keeps ..)
  | cmc => exact .next (mapFlags_keeps ..)
  | clc => exact .next (mapFlags_keeps ..)
  | stc => exact .next (mapFlags_keeps ..)
  | cli => exact .next (mapFlags_keeps ..)
  | sti => exact .next (mapFlags_keeps ..)
  | cld => exact .next (mapFlags_keeps ..)
  | std => exact .next (mapFlags_keeps ..)
  | prefixLockAlias => exact .ofAlias (lockPrefix_keeps ..)

/-- What `exec` keeps, whatever the instruction. -/
theorem exec_keeps {i : Instr} {s t : State} (h : exec i s = .next t) : Keeps s t := exec_outcomeKeeps i s t h

end Sys2Proof.Machine
end

