-- ==== Sys2Proof/Laws/PerInstr.lean ====
section
/-! SUPPORT. Statements about every instruction, one lemma per constructor: `EncodingSize`, every encoding has one to six bytes
(30 R400, R440). -/

namespace Sys2Proof.Laws.EncodingSize

/-- The encoding has at least the opcode byte and at most `maxInstrBytes` bytes. -/
def Statement (i : Instr) : Prop := 1 ≤ (encode i).length ∧ (encode i).length ≤ maxInstrBytes

theorem memBytes_length (reg : BitVec 3) (m : Mem) : (memBytes reg m).length ≤ 3 := by
  cases m <;> simp [memBytes, wordBytes]

theorem rm8Bytes_length (reg : BitVec 3) (e : RM8) : (rm8Bytes reg e).length ≤ 3 := by
  cases e with
  | reg r => simp [rm8Bytes]
  | mem m => exact memBytes_length reg m

theorem rm16Bytes_length (reg : BitVec 3) (e : RM16) : (rm16Bytes reg e).length ≤ 3 := by
  cases e with
  | reg r => simp [rm16Bytes]
  | mem m => exact memBytes_length reg m

/-- An opcode, at most three bytes of operand and at most two of immediate. -/
theorem of_parts {op : Byte} {xs ys : List Byte} (hx : xs.length ≤ 3) (hy : ys.length ≤ 2) :
    1 ≤ (op :: xs ++ ys).length ∧ (op :: xs ++ ys).length ≤ maxInstrBytes := by
  simp only [List.length_append, List.length_cons, maxInstrBytes]; omega

/-- An opcode and at most three bytes of operand. -/
theorem of_operand {op : Byte} {xs : List Byte} (hx : xs.length ≤ 3) : 1 ≤ (op :: xs).length ∧ (op :: xs).length ≤ maxInstrBytes := by
  simp only [List.length_cons, maxInstrBytes]; omega

/-- An encoding of a fixed length. -/
theorem of_fixed {i : Instr} (h : Nat.ble 1 (encode i).length = true) (k : Nat.ble (encode i).length maxInstrBytes = true) :
    Statement i := ⟨Nat.le_of_ble_eq_true h, Nat.le_of_ble_eq_true k⟩

theorem addEbGb (e : RM8) (g : Reg8) : Statement (.addEbGb e g) := of_operand (rm8Bytes_length ..)

theorem addEvGv (e : RM16) (g : Reg16) : Statement (.addEvGv e g) := of_operand (rm16Bytes_length ..)

theorem addGbEb (g : Reg8) (e : RM8) : Statement (.addGbEb g e) := of_operand (rm8Bytes_length ..)

theorem addGvEv (g : Reg16) (e : RM16) : Statement (.addGvEv g e) := of_operand (rm16Bytes_length ..)

theorem addAlIb (i : Byte) : Statement (.addAlIb i) := of_fixed rfl rfl

theorem addAxIw (i : Word) : Statement (.addAxIw i) := of_fixed rfl rfl

theorem orEbGb (e : RM8) (g : Reg8) : Statement (.orEbGb e g) := of_operand (rm8Bytes_length ..)

theorem orEvGv (e : RM16) (g : Reg16) : Statement (.orEvGv e g) := of_operand (rm16Bytes_length ..)

theorem orGbEb (g : Reg8) (e : RM8) : Statement (.orGbEb g e) := of_operand (rm8Bytes_length ..)

theorem orGvEv (g : Reg16) (e : RM16) : Statement (.orGvEv g e) := of_operand (rm16Bytes_length ..)

theorem orAlIb (i : Byte) : Statement (.orAlIb i) := of_fixed rfl rfl

theorem orAxIw (i : Word) : Statement (.orAxIw i) := of_fixed rfl rfl

theorem adcEbGb (e : RM8) (g : Reg8) : Statement (.adcEbGb e g) := of_operand (rm8Bytes_length ..)

theorem adcEvGv (e : RM16) (g : Reg16) : Statement (.adcEvGv e g) := of_operand (rm16Bytes_length ..)

theorem adcGbEb (g : Reg8) (e : RM8) : Statement (.adcGbEb g e) := of_operand (rm8Bytes_length ..)

theorem adcGvEv (g : Reg16) (e : RM16) : Statement (.adcGvEv g e) := of_operand (rm16Bytes_length ..)

theorem adcAlIb (i : Byte) : Statement (.adcAlIb i) := of_fixed rfl rfl

theorem adcAxIw (i : Word) : Statement (.adcAxIw i) := of_fixed rfl rfl

theorem sbbEbGb (e : RM8) (g : Reg8) : Statement (.sbbEbGb e g) := of_operand (rm8Bytes_length ..)

theorem sbbEvGv (e : RM16) (g : Reg16) : Statement (.sbbEvGv e g) := of_operand (rm16Bytes_length ..)

theorem sbbGbEb (g : Reg8) (e : RM8) : Statement (.sbbGbEb g e) := of_operand (rm8Bytes_length ..)

theorem sbbGvEv (g : Reg16) (e : RM16) : Statement (.sbbGvEv g e) := of_operand (rm16Bytes_length ..)

theorem sbbAlIb (i : Byte) : Statement (.sbbAlIb i) := of_fixed rfl rfl

theorem sbbAxIw (i : Word) : Statement (.sbbAxIw i) := of_fixed rfl rfl

theorem andEbGb (e : RM8) (g : Reg8) : Statement (.andEbGb e g) := of_operand (rm8Bytes_length ..)

theorem andEvGv (e : RM16) (g : Reg16) : Statement (.andEvGv e g) := of_operand (rm16Bytes_length ..)

theorem andGbEb (g : Reg8) (e : RM8) : Statement (.andGbEb g e) := of_operand (rm8Bytes_length ..)

theorem andGvEv (g : Reg16) (e : RM16) : Statement (.andGvEv g e) := of_operand (rm16Bytes_length ..)

theorem andAlIb (i : Byte) : Statement (.andAlIb i) := of_fixed rfl rfl

theorem andAxIw (i : Word) : Statement (.andAxIw i) := of_fixed rfl rfl

theorem subEbGb (e : RM8) (g : Reg8) : Statement (.subEbGb e g) := of_operand (rm8Bytes_length ..)

theorem subEvGv (e : RM16) (g : Reg16) : Statement (.subEvGv e g) := of_operand (rm16Bytes_length ..)

theorem subGbEb (g : Reg8) (e : RM8) : Statement (.subGbEb g e) := of_operand (rm8Bytes_length ..)

theorem subGvEv (g : Reg16) (e : RM16) : Statement (.subGvEv g e) := of_operand (rm16Bytes_length ..)

theorem subAlIb (i : Byte) : Statement (.subAlIb i) := of_fixed rfl rfl

theorem subAxIw (i : Word) : Statement (.subAxIw i) := of_fixed rfl rfl

theorem xorEbGb (e : RM8) (g : Reg8) : Statement (.xorEbGb e g) := of_operand (rm8Bytes_length ..)

theorem xorEvGv (e : RM16) (g : Reg16) : Statement (.xorEvGv e g) := of_operand (rm16Bytes_length ..)

theorem xorGbEb (g : Reg8) (e : RM8) : Statement (.xorGbEb g e) := of_operand (rm8Bytes_length ..)

theorem xorGvEv (g : Reg16) (e : RM16) : Statement (.xorGvEv g e) := of_operand (rm16Bytes_length ..)

theorem xorAlIb (i : Byte) : Statement (.xorAlIb i) := of_fixed rfl rfl

theorem xorAxIw (i : Word) : Statement (.xorAxIw i) := of_fixed rfl rfl

theorem cmpEbGb (e : RM8) (g : Reg8) : Statement (.cmpEbGb e g) := of_operand (rm8Bytes_length ..)

theorem cmpEvGv (e : RM16) (g : Reg16) : Statement (.cmpEvGv e g) := of_operand (rm16Bytes_length ..)

theorem cmpGbEb (g : Reg8) (e : RM8) : Statement (.cmpGbEb g e) := of_operand (rm8Bytes_length ..)

theorem cmpGvEv (g : Reg16) (e : RM16) : Statement (.cmpGvEv g e) := of_operand (rm16Bytes_length ..)

theorem cmpAlIb (i : Byte) : Statement (.cmpAlIb i) := of_fixed rfl rfl

theorem cmpAxIw (i : Word) : Statement (.cmpAxIw i) := of_fixed rfl rfl

theorem incR16 (r : Reg16) : Statement (.incR16 r) := of_fixed rfl rfl

theorem decR16 (r : Reg16) : Statement (.decR16 r) := of_fixed rfl rfl

theorem pushR16 (r : Reg16) : Statement (.pushR16 r) := of_fixed rfl rfl

theorem popR16 (r : Reg16) : Statement (.popR16 r) := of_fixed rfl rfl

theorem jo (rel : Byte) : Statement (.jo rel) := of_fixed rfl rfl

theorem jno (rel : Byte) : Statement (.jno rel) := of_fixed rfl rfl

theorem jb (rel : Byte) : Statement (.jb rel) := of_fixed rfl rfl

theorem jnb (rel : Byte) : Statement (.jnb rel) := of_fixed rfl rfl

theorem jz (rel : Byte) : Statement (.jz rel) := of_fixed rfl rfl

theorem jnz (rel : Byte) : Statement (.jnz rel) := of_fixed rfl rfl

theorem jbe (rel : Byte) : Statement (.jbe rel) := of_fixed rfl rfl

theorem ja (rel : Byte) : Statement (.ja rel) := of_fixed rfl rfl

theorem js (rel : Byte) : Statement (.js rel) := of_fixed rfl rfl

theorem jns (rel : Byte) : Statement (.jns rel) := of_fixed rfl rfl

theorem jp (rel : Byte) : Statement (.jp rel) := of_fixed rfl rfl

theorem jnp (rel : Byte) : Statement (.jnp rel) := of_fixed rfl rfl

theorem jl (rel : Byte) : Statement (.jl rel) := of_fixed rfl rfl

theorem jge (rel : Byte) : Statement (.jge rel) := of_fixed rfl rfl

theorem jle (rel : Byte) : Statement (.jle rel) := of_fixed rfl rfl

theorem jg (rel : Byte) : Statement (.jg rel) := of_fixed rfl rfl

theorem jccAlias (cc : BitVec 4) (rel : Byte) : Statement (.jccAlias cc rel) := of_fixed rfl rfl

theorem addEbIb (e : RM8) (i : Byte) : Statement (.addEbIb e i) := of_parts (rm8Bytes_length ..) (Nat.le_succ 1)

theorem orEbIb (e : RM8) (i : Byte) : Statement (.orEbIb e i) := of_parts (rm8Bytes_length ..) (Nat.le_succ 1)

theorem adcEbIb (e : RM8) (i : Byte) : Statement (.adcEbIb e i) := of_parts (rm8Bytes_length ..) (Nat.le_succ 1)

theorem sbbEbIb (e : RM8) (i : Byte) : Statement (.sbbEbIb e i) := of_parts (rm8Bytes_length ..) (Nat.le_succ 1)

theorem andEbIb (e : RM8) (i : Byte) : Statement (.andEbIb e i) := of_parts (rm8Bytes_length ..) (Nat.le_succ 1)

theorem subEbIb (e : RM8) (i : Byte) : Statement (.subEbIb e i) := of_parts (rm8Bytes_length ..) (Nat.le_succ 1)

theorem xorEbIb (e : RM8) (i : Byte) : Statement (.xorEbIb e i) := of_parts (rm8Bytes_length ..) (Nat.le_succ 1)

theorem cmpEbIb (e : RM8) (i : Byte) : Statement (.cmpEbIb e i) := of_parts (rm8Bytes_length ..) (Nat.le_succ 1)

theorem addEvIw (e : RM16) (i : Word) : Statement (.addEvIw e i) := of_parts (rm16Bytes_length ..) (Nat.le_refl 2)

theorem orEvIw (e : RM16) (i : Word) : Statement (.orEvIw e i) := of_parts (rm16Bytes_length ..) (Nat.le_refl 2)

theorem adcEvIw (e : RM16) (i : Word) : Statement (.adcEvIw e i) := of_parts (rm16Bytes_length ..) (Nat.le_refl 2)

theorem sbbEvIw (e : RM16) (i : Word) : Statement (.sbbEvIw e i) := of_parts (rm16Bytes_length ..) (Nat.le_refl 2)

theorem andEvIw (e : RM16) (i : Word) : Statement (.andEvIw e i) := of_parts (rm16Bytes_length ..) (Nat.le_refl 2)

theorem subEvIw (e : RM16) (i : Word) : Statement (.subEvIw e i) := of_parts (rm16Bytes_length ..) (Nat.le_refl 2)

theorem xorEvIw (e : RM16) (i : Word) : Statement (.xorEvIw e i) := of_parts (rm16Bytes_length ..) (Nat.le_refl 2)

theorem cmpEvIw (e : RM16) (i : Word) : Statement (.cmpEvIw e i) := of_parts (rm16Bytes_length ..) (Nat.le_refl 2)

theorem addEbIbAlias (e : RM8) (i : Byte) : Statement (.addEbIbAlias e i) := of_parts (rm8Bytes_length ..) (Nat.le_succ 1)

theorem orEbIbAlias (e : RM8) (i : Byte) : Statement (.orEbIbAlias e i) := of_parts (rm8Bytes_length ..) (Nat.le_succ 1)

theorem adcEbIbAlias (e : RM8) (i : Byte) : Statement (.adcEbIbAlias e i) := of_parts (rm8Bytes_length ..) (Nat.le_succ 1)

theorem sbbEbIbAlias (e : RM8) (i : Byte) : Statement (.sbbEbIbAlias e i) := of_parts (rm8Bytes_length ..) (Nat.le_succ 1)

theorem andEbIbAlias (e : RM8) (i : Byte) : Statement (.andEbIbAlias e i) := of_parts (rm8Bytes_length ..) (Nat.le_succ 1)

theorem subEbIbAlias (e : RM8) (i : Byte) : Statement (.subEbIbAlias e i) := of_parts (rm8Bytes_length ..) (Nat.le_succ 1)

theorem xorEbIbAlias (e : RM8) (i : Byte) : Statement (.xorEbIbAlias e i) := of_parts (rm8Bytes_length ..) (Nat.le_succ 1)

theorem cmpEbIbAlias (e : RM8) (i : Byte) : Statement (.cmpEbIbAlias e i) := of_parts (rm8Bytes_length ..) (Nat.le_succ 1)

theorem addEvIbSx (e : RM16) (i : Byte) : Statement (.addEvIbSx e i) := of_parts (rm16Bytes_length ..) (Nat.le_succ 1)

theorem orEvIbSx (e : RM16) (i : Byte) : Statement (.orEvIbSx e i) := of_parts (rm16Bytes_length ..) (Nat.le_succ 1)

theorem adcEvIbSx (e : RM16) (i : Byte) : Statement (.adcEvIbSx e i) := of_parts (rm16Bytes_length ..) (Nat.le_succ 1)

theorem sbbEvIbSx (e : RM16) (i : Byte) : Statement (.sbbEvIbSx e i) := of_parts (rm16Bytes_length ..) (Nat.le_succ 1)

theorem andEvIbSx (e : RM16) (i : Byte) : Statement (.andEvIbSx e i) := of_parts (rm16Bytes_length ..) (Nat.le_succ 1)

theorem subEvIbSx (e : RM16) (i : Byte) : Statement (.subEvIbSx e i) := of_parts (rm16Bytes_length ..) (Nat.le_succ 1)

theorem xorEvIbSx (e : RM16) (i : Byte) : Statement (.xorEvIbSx e i) := of_parts (rm16Bytes_length ..) (Nat.le_succ 1)

theorem cmpEvIbSx (e : RM16) (i : Byte) : Statement (.cmpEvIbSx e i) := of_parts (rm16Bytes_length ..) (Nat.le_succ 1)

theorem testEbGb (e : RM8) (g : Reg8) : Statement (.testEbGb e g) := of_operand (rm8Bytes_length ..)

theorem testEvGv (e : RM16) (g : Reg16) : Statement (.testEvGv e g) := of_operand (rm16Bytes_length ..)

theorem xchgEbGb (e : RM8) (g : Reg8) : Statement (.xchgEbGb e g) := of_operand (rm8Bytes_length ..)

theorem xchgEvGv (e : RM16) (g : Reg16) : Statement (.xchgEvGv e g) := of_operand (rm16Bytes_length ..)

theorem movEbGb (e : RM8) (g : Reg8) : Statement (.movEbGb e g) := of_operand (rm8Bytes_length ..)

theorem movEvGv (e : RM16) (g : Reg16) : Statement (.movEvGv e g) := of_operand (rm16Bytes_length ..)

theorem movGbEb (g : Reg8) (e : RM8) : Statement (.movGbEb g e) := of_operand (rm8Bytes_length ..)

theorem movGvEv (g : Reg16) (e : RM16) : Statement (.movGvEv g e) := of_operand (rm16Bytes_length ..)

theorem movEwSw (e : RM16) (sr : Sreg) : Statement (.movEwSw e sr) := of_operand (rm16Bytes_length ..)

theorem movEwSwAlias (e : RM16) (sr : Sreg) : Statement (.movEwSwAlias e sr) := of_operand (rm16Bytes_length ..)

theorem leaGvM (g : Reg16) (m : Mem) : Statement (.leaGvM g m) := of_operand (rm16Bytes_length ..)

theorem leaGvRegRefused (g : Reg16) (r : Reg16) : Statement (.leaGvRegRefused g r) := of_operand (rm16Bytes_length ..)

theorem movEsEw (e : RM16) : Statement (.movEsEw e) := of_operand (rm16Bytes_length ..)

theorem movCsEwRefused1 (e : RM16) : Statement (.movCsEwRefused1 e) := of_operand (rm16Bytes_length ..)

theorem movSsEw (e : RM16) : Statement (.movSsEw e) := of_operand (rm16Bytes_length ..)

theorem movDsEw (e : RM16) : Statement (.movDsEw e) := of_operand (rm16Bytes_length ..)

theorem movEsEwAlias (e : RM16) : Statement (.movEsEwAlias e) := of_operand (rm16Bytes_length ..)

theorem movCsEwRefused5 (e : RM16) : Statement (.movCsEwRefused5 e) := of_operand (rm16Bytes_length ..)

theorem movSsEwAlias (e : RM16) : Statement (.movSsEwAlias e) := of_operand (rm16Bytes_length ..)

theorem movDsEwAlias (e : RM16) : Statement (.movDsEwAlias e) := of_operand (rm16Bytes_length ..)

theorem popEv (e : RM16) : Statement (.popEv e) := of_operand (rm16Bytes_length ..)

theorem pop8FRefused (reg : BitVec 3) (e : RM16) : Statement (.pop8FRefused reg e) := of_operand (rm16Bytes_length ..)

theorem xchgAxR16 (r : Reg16) : Statement (.xchgAxR16 r) := of_fixed rfl rfl

theorem callPtr (off : Word) (seg : Word) : Statement (.callPtr off seg) := of_fixed rfl rfl

theorem movAlMoffs (off : Word) : Statement (.movAlMoffs off) := of_fixed rfl rfl

theorem movAxMoffs (off : Word) : Statement (.movAxMoffs off) := of_fixed rfl rfl

theorem movMoffsAl (off : Word) : Statement (.movMoffsAl off) := of_fixed rfl rfl

theorem movMoffsAx (off : Word) : Statement (.movMoffsAx off) := of_fixed rfl rfl

theorem testAlIb (i : Byte) : Statement (.testAlIb i) := of_fixed rfl rfl

theorem testAxIw (i : Word) : Statement (.testAxIw i) := of_fixed rfl rfl

theorem movR8Ib (r : Reg8) (i : Byte) : Statement (.movR8Ib r i) := of_fixed rfl rfl

theorem movR16Iw (r : Reg16) (i : Word) : Statement (.movR16Iw r i) := of_fixed rfl rfl

theorem retIwAlias (i : Word) : Statement (.retIwAlias i) := of_fixed rfl rfl

theorem retIw (i : Word) : Statement (.retIw i) := of_fixed rfl rfl

theorem retfIwAlias (i : Word) : Statement (.retfIwAlias i) := of_fixed rfl rfl

theorem retfIw (i : Word) : Statement (.retfIw i) := of_fixed rfl rfl

theorem intIb (i : Byte) : Statement (.intIb i) := of_fixed rfl rfl

theorem lesGvMp (g : Reg16) (m : Mem) : Statement (.lesGvMp g m) := of_operand (rm16Bytes_length ..)

theorem lesGvRegRefused (g : Reg16) (r : Reg16) : Statement (.lesGvRegRefused g r) := of_operand (rm16Bytes_length ..)

theorem ldsGvMp (g : Reg16) (m : Mem) : Statement (.ldsGvMp g m) := of_operand (rm16Bytes_length ..)

theorem ldsGvRegRefused (g : Reg16) (r : Reg16) : Statement (.ldsGvRegRefused g r) := of_operand (rm16Bytes_length ..)

theorem movEbIb (e : RM8) (i : Byte) : Statement (.movEbIb e i) := of_parts (rm8Bytes_length ..) (Nat.le_succ 1)

theorem movC6Refused (reg : BitVec 3) (e : RM8) (i : Byte) : Statement (.movC6Refused reg e i) := of_parts (rm8Bytes_length ..) (Nat.le_succ 1)

theorem movEvIw (e : RM16) (i : Word) : Statement (.movEvIw e i) := of_parts (rm16Bytes_length ..) (Nat.le_refl 2)

theorem movC7Refused (reg : BitVec 3) (e : RM16) (i : Word) : Statement (.movC7Refused reg e i) := of_parts (rm16Bytes_length ..) (Nat.le_refl 2)

theorem rolEb1 (e : RM8) : Statement (.rolEb1 e) := of_operand (rm8Bytes_length ..)

theorem rorEb1 (e : RM8) : Statement (.rorEb1 e) := of_operand (rm8Bytes_length ..)

theorem rclEb1 (e : RM8) : Statement (.rclEb1 e) := of_operand (rm8Bytes_length ..)

theorem rcrEb1 (e : RM8) : Statement (.rcrEb1 e) := of_operand (rm8Bytes_length ..)

theorem shlEb1 (e : RM8) : Statement (.shlEb1 e) := of_operand (rm8Bytes_length ..)

theorem shrEb1 (e : RM8) : Statement (.shrEb1 e) := of_operand (rm8Bytes_length ..)

theorem setmoEb1 (e : RM8) : Statement (.setmoEb1 e) := of_operand (rm8Bytes_length ..)

theorem sarEb1 (e : RM8) : Statement (.sarEb1 e) := of_operand (rm8Bytes_length ..)

theorem rolEv1 (e : RM16) : Statement (.rolEv1 e) := of_operand (rm16Bytes_length ..)

theorem rorEv1 (e : RM16) : Statement (.rorEv1 e) := of_operand (rm16Bytes_length ..)

theorem rclEv1 (e : RM16) : Statement (.rclEv1 e) := of_operand (rm16Bytes_length ..)

theorem rcrEv1 (e : RM16) : Statement (.rcrEv1 e) := of_operand (rm16Bytes_length ..)

theorem shlEv1 (e : RM16) : Statement (.shlEv1 e) := of_operand (rm16Bytes_length ..)

theorem shrEv1 (e : RM16) : Statement (.shrEv1 e) := of_operand (rm16Bytes_length ..)

theorem setmoEv1 (e : RM16) : Statement (.setmoEv1 e) := of_operand (rm16Bytes_length ..)

theorem sarEv1 (e : RM16) : Statement (.sarEv1 e) := of_operand (rm16Bytes_length ..)

theorem rolEbCl (e : RM8) : Statement (.rolEbCl e) := of_operand (rm8Bytes_length ..)

theorem rorEbCl (e : RM8) : Statement (.rorEbCl e) := of_operand (rm8Bytes_length ..)

theorem rclEbCl (e : RM8) : Statement (.rclEbCl e) := of_operand (rm8Bytes_length ..)

theorem rcrEbCl (e : RM8) : Statement (.rcrEbCl e) := of_operand (rm8Bytes_length ..)

theorem shlEbCl (e : RM8) : Statement (.shlEbCl e) := of_operand (rm8Bytes_length ..)

theorem shrEbCl (e : RM8) : Statement (.shrEbCl e) := of_operand (rm8Bytes_length ..)

theorem setmocEbCl (e : RM8) : Statement (.setmocEbCl e) := of_operand (rm8Bytes_length ..)

theorem sarEbCl (e : RM8) : Statement (.sarEbCl e) := of_operand (rm8Bytes_length ..)

theorem rolEvCl (e : RM16) : Statement (.rolEvCl e) := of_operand (rm16Bytes_length ..)

theorem rorEvCl (e : RM16) : Statement (.rorEvCl e) := of_operand (rm16Bytes_length ..)

theorem rclEvCl (e : RM16) : Statement (.rclEvCl e) := of_operand (rm16Bytes_length ..)

theorem rcrEvCl (e : RM16) : Statement (.rcrEvCl e) := of_operand (rm16Bytes_length ..)

theorem shlEvCl (e : RM16) : Statement (.shlEvCl e) := of_operand (rm16Bytes_length ..)

theorem shrEvCl (e : RM16) : Statement (.shrEvCl e) := of_operand (rm16Bytes_length ..)

theorem setmocEvCl (e : RM16) : Statement (.setmocEvCl e) := of_operand (rm16Bytes_length ..)

theorem sarEvCl (e : RM16) : Statement (.sarEvCl e) := of_operand (rm16Bytes_length ..)

theorem aamIb (i : Byte) : Statement (.aamIb i) := of_fixed rfl rfl

theorem aadIb (i : Byte) : Statement (.aadIb i) := of_fixed rfl rfl

theorem esc (code : BitVec 6) (e : RM16) : Statement (.esc code e) := of_operand (rm16Bytes_length ..)

theorem loopnz (rel : Byte) : Statement (.loopnz rel) := of_fixed rfl rfl

theorem loopz (rel : Byte) : Statement (.loopz rel) := of_fixed rfl rfl

theorem loop (rel : Byte) : Statement (.loop rel) := of_fixed rfl rfl

theorem jcxz (rel : Byte) : Statement (.jcxz rel) := of_fixed rfl rfl

theorem inAlIb (i : Byte) : Statement (.inAlIb i) := of_fixed rfl rfl

theorem inAxIb (i : Byte) : Statement (.inAxIb i) := of_fixed rfl rfl

theorem outIbAl (i : Byte) : Statement (.outIbAl i) := of_fixed rfl rfl

theorem outIbAx (i : Byte) : Statement (.outIbAx i) := of_fixed rfl rfl

theorem callRel16 (rel : Word) : Statement (.callRel16 rel) := of_fixed rfl rfl

theorem jmpRel16 (rel : Word) : Statement (.jmpRel16 rel) := of_fixed rfl rfl

theorem jmpPtr (off : Word) (seg : Word) : Statement (.jmpPtr off seg) := of_fixed rfl rfl

theorem jmpRel8 (rel : Byte) : Statement (.jmpRel8 rel) := of_fixed rfl rfl

theorem testEbIb (e : RM8) (i : Byte) : Statement (.testEbIb e i) := of_parts (rm8Bytes_length ..) (Nat.le_succ 1)

theorem testEbIbAlias (e : RM8) (i : Byte) : Statement (.testEbIbAlias e i) := of_parts (rm8Bytes_length ..) (Nat.le_succ 1)

theorem notEb (e : RM8) : Statement (.notEb e) := of_operand (rm8Bytes_length ..)

theorem negEb (e : RM8) : Statement (.negEb e) := of_operand (rm8Bytes_length ..)

theorem mulEb (e : RM8) : Statement (.mulEb e) := of_operand (rm8Bytes_length ..)

theorem imulEb (e : RM8) : Statement (.imulEb e) := of_operand (rm8Bytes_length ..)

theorem divEb (e : RM8) : Statement (.divEb e) := of_operand (rm8Bytes_length ..)

theorem idivEb (e : RM8) : Statement (.idivEb e) := of_operand (rm8Bytes_length ..)

theorem testEvIw (e : RM16) (i : Word) : Statement (.testEvIw e i) := of_parts (rm16Bytes_length ..) (Nat.le_refl 2)

theorem testEvIwAlias (e : RM16) (i : Word) : Statement (.testEvIwAlias e i) := of_parts (rm16Bytes_length ..) (Nat.le_refl 2)

theorem notEv (e : RM16) : Statement (.notEv e) := of_operand (rm16Bytes_length ..)

theorem negEv (e : RM16) : Statement (.negEv e) := of_operand (rm16Bytes_length ..)

theorem mulEv (e : RM16) : Statement (.mulEv e) := of_operand (rm16Bytes_length ..)

theorem imulEv (e : RM16) : Statement (.imulEv e) := of_operand (rm16Bytes_length ..)

theorem divEv (e : RM16) : Statement (.divEv e) := of_operand (rm16Bytes_length ..)

theorem idivEv (e : RM16) : Statement (.idivEv e) := of_operand (rm16Bytes_length ..)

theorem incEb (e : RM8) : Statement (.incEb e) := of_operand (rm8Bytes_length ..)

theorem decEb (e : RM8) : Statement (.decEb e) := of_operand (rm8Bytes_length ..)

theorem feRefused (reg : BitVec 3) (e : RM8) : Statement (.feRefused reg e) := of_operand (rm8Bytes_length ..)

theorem incEv (e : RM16) : Statement (.incEv e) := of_operand (rm16Bytes_length ..)

theorem decEv (e : RM16) : Statement (.decEv e) := of_operand (rm16Bytes_length ..)

theorem callEv (e : RM16) : Statement (.callEv e) := of_operand (rm16Bytes_length ..)

theorem callMp (m : Mem) : Statement (.callMp m) := of_operand (rm16Bytes_length ..)

theorem jmpEv (e : RM16) : Statement (.jmpEv e) := of_operand (rm16Bytes_length ..)

theorem jmpMp (m : Mem) : Statement (.jmpMp m) := of_operand (rm16Bytes_length ..)

theorem pushEv (e : RM16) : Statement (.pushEv e) := of_operand (rm16Bytes_length ..)

theorem callMpRegRefused (r : Reg16) : Statement (.callMpRegRefused r) := of_operand (rm16Bytes_length ..)

theorem jmpMpRegRefused (r : Reg16) : Statement (.jmpMpRegRefused r) := of_operand (rm16Bytes_length ..)

theorem ff7Refused (e : RM16) : Statement (.ff7Refused e) := of_operand (rm16Bytes_length ..)

theorem pushEs : Statement .pushEs := of_fixed rfl rfl

theorem popEs : Statement .popEs := of_fixed rfl rfl

theorem pushCs : Statement .pushCs := of_fixed rfl rfl

theorem popCsRefused : Statement .popCsRefused := of_fixed rfl rfl

theorem pushSs : Statement .pushSs := of_fixed rfl rfl

theorem popSs : Statement .popSs := of_fixed rfl rfl

theorem pushDs : Statement .pushDs := of_fixed rfl rfl

theorem popDs : Statement .popDs := of_fixed rfl rfl

theorem prefixEs : Statement .prefixEs := of_fixed rfl rfl

theorem prefixCs : Statement .prefixCs := of_fixed rfl rfl

theorem prefixSs : Statement .prefixSs := of_fixed rfl rfl

theorem prefixDs : Statement .prefixDs := of_fixed rfl rfl

theorem daa : Statement .daa := of_fixed rfl rfl

theorem das : Statement .das := of_fixed rfl rfl

theorem aaa : Statement .aaa := of_fixed rfl rfl

theorem aas : Statement .aas := of_fixed rfl rfl

theorem nop : Statement .nop := of_fixed rfl rfl

theorem cbw : Statement .cbw := of_fixed rfl rfl

theorem cwd : Statement .cwd := of_fixed rfl rfl

theorem wait : Statement .wait := of_fixed rfl rfl

theorem pushf : Statement .pushf := of_fixed rfl rfl

theorem popf : Statement .popf := of_fixed rfl rfl

theorem sahf : Statement .sahf := of_fixed rfl rfl

theorem lahf : Statement .lahf := of_fixed rfl rfl

theorem movsb : Statement .movsb := of_fixed rfl rfl

theorem movsw : Statement .movsw := of_fixed rfl rfl

theorem cmpsb : Statement .cmpsb := of_fixed rfl rfl

theorem cmpsw : Statement .cmpsw := of_fixed rfl rfl

theorem stosb : Statement .stosb := of_fixed rfl rfl

theorem stosw : Statement .stosw := of_fixed rfl rfl

theorem lodsb : Statement .lodsb := of_fixed rfl rfl

theorem lodsw : Statement .lodsw := of_fixed rfl rfl

theorem scasb : Statement .scasb := of_fixed rfl rfl

theorem scasw : Statement .scasw := of_fixed rfl rfl

theorem retAlias : Statement .retAlias := of_fixed rfl rfl

theorem ret : Statement .ret := of_fixed rfl rfl

theorem retfAlias : Statement .retfAlias := of_fixed rfl rfl

theorem retf : Statement .retf := of_fixed rfl rfl

theorem int3 : Statement .int3 := of_fixed rfl rfl

theorem into : Statement .into := of_fixed rfl rfl

theorem iret : Statement .iret := of_fixed rfl rfl

theorem salc : Statement .salc := of_fixed rfl rfl

theorem xlat : Statement .xlat := of_fixed rfl rfl

theorem inAlDx : Statement .inAlDx := of_fixed rfl rfl

theorem inAxDx : Statement .inAxDx := of_fixed rfl rfl

theorem outDxAl : Statement .outDxAl := of_fixed rfl rfl

theorem outDxAx : Statement .outDxAx := of_fixed rfl rfl

theorem prefixLock : Statement .prefixLock := of_fixed rfl rfl

theorem prefixRepne : Statement .prefixRepne := of_fixed rfl rfl

theorem prefixRep : Statement .prefixRep := of_fixed rfl rfl

theorem hlt : Statement .hlt := of_fixed rfl rfl

theorem cmc : Statement .cmc := of_fixed rfl rfl

theorem clc : Statement .clc := of_fixed rfl rfl

theorem stc : Statement .stc := of_fixed rfl rfl

theorem cli : Statement .cli := of_fixed rfl rfl

theorem sti : Statement .sti := of_fixed rfl rfl

theorem cld : Statement .cld := of_fixed rfl rfl

theorem std : Statement .std := of_fixed rfl rfl

theorem prefixLockAlias : Statement .prefixLockAlias := of_fixed rfl rfl

end Sys2Proof.Laws.EncodingSize
end

