-- ==== Sys2Proof/Laws/Steps.lean ====
section
/-! SUPPORT. What fetching, interrupt entries, REP steps and the scheduler keep: a step's parts, each with its own lemma. -/

namespace Sys2Proof.Machine

/-! Fetching and the instruction frame. -/

theorem fetch8_keeps (s : State) : Keeps s (fetch8 s).2 :=
  ⟨fetch8_queueOk s, by rw [fetch8_bus]; exact .refl, by simp, by simp, fetch8_history s⟩

theorem fetchLoop_keeps (n : Nat) (bs : List Byte) (s : State) : ∀ i t, fetchLoop n bs s = some (i, t) → Keeps s t := by
  induction n generalizing bs s with
  | zero => simp [fetchLoop]
  | succ n ih =>
    intro i t h
    simp only [fetchLoop] at h
    split at h
    · cases h; exact fetch8_keeps s
    · exact (fetch8_keeps s).trans (ih _ _ _ _ h)

theorem beginInstruction_keeps (s : State) : Keeps s (beginInstruction s) := .of_eq rfl rfl rfl rfl rfl rfl rfl

theorem endOfInstruction_keeps (b : Bool) (s : State) : Keeps s (endOfInstruction b s) := .of_eq rfl rfl rfl rfl rfl rfl rfl

theorem finishInstruction_keeps (b : Bool) (s : State) : Keeps s (finishInstruction b s) := by
  unfold finishInstruction
  split
  · exact .refl s
  · exact endOfInstruction_keeps b s

theorem runInstruction_keeps (n : Nat) (s : State) : OutcomeKeeps s (runInstruction n s) := by
  induction n generalizing s with
  | zero => exact .next (.of_eq rfl rfl rfl rfl rfl rfl rfl)
  | succ n ih =>
    intro t h
    simp only [runInstruction] at h
    split at h
    · cases h
    · rename_i i u hf
      have hu := fetchLoop_keeps _ _ _ i u hf
      split at h
      · rename_i v hv
        have hx := hu.trans (exec_keeps hv)
        split at h
        · exact hx.trans (ih _ _ h)
        · cases h; exact hx.trans (finishInstruction_keeps _ _)
      · cases h
      · cases h

/-! Entries. -/

theorem intaCycle_keeps (v : Byte) (s : State) : Keeps s (intaCycle v s) :=
  (bumpDraws_keeps s).trans (heldCycle_keeps (.refl _) (by simp) (by simp) rfl (some v) 0)

theorem mapDev_keeps (f : Devices → Devices) (s : State) : Keeps s (s.mapDev f) := .of_eq rfl rfl rfl rfl rfl rfl rfl

theorem acknowledge_keeps {v : Byte} {s t : State} (h : acknowledge s = some (v, t)) : Keeps s t := by
  simp only [acknowledge] at h
  split at h
  · cases h
  · cases h
    refine Keeps.trans ?_ (biuTurn_keeps _)
    refine Keeps.trans ?_ (mapDev_keeps _ _)
    refine Keeps.trans ?_ (record_keeps _ _)
    refine Keeps.trans ?_ (intaCycle_keeps _ _)
    refine Keeps.trans ?_ (record_keeps _ _)
    refine Keeps.trans ?_ (intaCycle_keeps _ _)
    exact (biuTurn_keeps s).trans (bumpDraws_keeps _)

theorem mapCpu_keeps (f : Cpu → Cpu) (s : State) (hi : (f s.cpu).ip = s.cpu.ip) (hs : (f s.cpu).segs = s.cpu.segs) :
    Keeps s (s.mapCpu f) :=
  .of_eq hi (by rw [show (s.mapCpu f).cpu.segs = s.cpu.segs from hs]) rfl rfl rfl rfl rfl

theorem boundaryEntry_keeps (s : State) : OutcomeKeeps s (boundaryEntry s) := by
  unfold boundaryEntry
  split
  · exact .next ((mapCpu_keeps _ s rfl rfl).trans (enter_keeps ..))
  · split
    · split
      · rename_i v t h
        exact .next ((acknowledge_keeps h).trans (enter_keeps v t.cpu.ip t))
      · exact .refused _ _
    · exact .next ((mapCpu_keeps _ s rfl rfl).trans (enter_keeps ..))

theorem rewindRep_keeps (r : RepRun) (s : State) : Keeps s (rewindRep r s) := by
  have h (o : Word) : Keeps s (clearPrefixes ((jumpNear o s).setRepRun none)) :=
    (jumpNear_keeps o s).trans (.of_eq rfl rfl rfl rfl rfl rfl rfl)
  unfold rewindRep
  dsimp only
  split
  · exact (h _).trans (.of_eq rfl rfl rfl rfl rfl rfl rfl)
  · exact h _

theorem repStep_keeps (r : RepRun) (s : State) : OutcomeKeeps s (repStep r s) := by
  unfold repStep
  split
  · exact fun t h => (rewindRep_keeps r s).trans (boundaryEntry_keeps _ t h)
  · exact .next ((repIteration_keeps r s).trans (finishInstruction_keeps ..))

theorem haltedSlice_keeps (s : State) : OutcomeKeeps s (haltedSlice s) := by
  unfold haltedSlice
  split
  · have h : Keeps s (resumeFetch (s.mapCpu fun c => { c with halted := false })) :=
      ⟨queueOk_carry rfl rfl rfl rfl rfl id, .refl, rfl, rfl, List.suffix_refl _⟩
    exact fun t k => h.trans (boundaryEntry_keeps _ t k)
  · exact .next (.refl s)

/-- The CPU's part of a machine step. -/
theorem cpuStep_keeps (s : State) : OutcomeKeeps s (cpuStep s) := by
  unfold cpuStep
  split
  · intro t h; cases h
  · split
    · intro t h; cases h
    · split
      · exact haltedSlice_keeps s
      · split
        · exact repStep_keeps _ s
        · split
          · have h : Keeps s (s.setDecoding false) := .of_eq rfl rfl rfl rfl rfl rfl rfl
            exact fun t k => h.trans (runInstruction_keeps _ _ t k)
          · split
            · exact boundaryEntry_keeps s
            · exact fun t h => (beginInstruction_keeps s).trans (runInstruction_keeps _ _ t h)

theorem Effect.mapPic {s t : State} {c : Cpu} {b : Bus} {x : List LinAddr} (h : Effect s t c b x) (f : Pic → Pic) :
    Effect (s.mapPic f) (t.mapPic f) c b x := by
  obtain ⟨h1, h2, h3, h4, h5⟩ := h
  exact ⟨h1, h2, by simp only [State.mapPic, State.mapDev, h3], h4, ⟨h5.bytes, h5.rom, h5.mmio, h5.cap, h5.params, h5.marks, h5.ir, h5.nmi, h5.dreq⟩⟩

theorem intaCycle_effect (v : Byte) (s : State) : Effect s (intaCycle v s) s.cpu s.bus [] := by
  simpa [intaCycle] using ((drawAddr_effect s).trans
    (openCycle_effect { kind := .inta, access := .code, addr := (drawAddr s).1, data := none } (drawAddr s).2)).trans
    (holdData_effect (some v) 0 _)

@[simp] theorem intaCycle_cpu (v : Byte) (s : State) : (intaCycle v s).cpu = s.cpu := by
  simp [intaCycle]

@[simp] theorem intaCycle_bus (v : Byte) (s : State) : (intaCycle v s).bus = s.bus := by
  simp [intaCycle]

/-- `acknowledge()` (60 R1233): the PIC takes its state after the acknowledge, and nothing but the BIU and the history
changes beside it. -/
theorem acknowledge_effect {v : Byte} {p : Pic} {s : State} (h : s.dev.pic.acknowledge = some (v, p)) :
    ∃ t, acknowledge s = some (v, t) ∧ Effect (s.mapPic fun _ => p) t s.cpu s.bus [] := by
  let d := drawByte (biuTurn s)
  let u := (intaCycle v ((intaCycle d.1 d.2).record .intaFirst)).record (.intaVector v)
  have hu : Effect s u s.cpu s.bus [] := by
    have k := (((((biuTurn_effect s).trans (drawByte_effect _)).trans (intaCycle_effect d.1 d.2)).trans
      (record_effect .intaFirst _)).trans (intaCycle_effect v _)).trans (record_effect (.intaVector v) _)
    simpa only [intaCycle_cpu, intaCycle_bus, record_cpu, record_bus, biuTurn_cpu, biuTurn_bus, drawByte_cpu, drawByte_bus,
      List.append_nil, d] using k
  refine ⟨biuTurn (u.mapPic fun _ => p), by simp only [acknowledge, h]; rfl, ?_⟩
  have k := (hu.mapPic fun _ => p).trans (biuTurn_effect _)
  rw [(hu.mapPic fun _ => p).1, (hu.mapPic fun _ => p).2.1] at k
  exact k

/-! The scheduler. -/

theorem dispatchRead_keeps (a : LinAddr) (s : State) : Keeps s (dispatchRead a s).2 :=
  .of_eq (by simp) (by simp) (by simp) (by simp) (by simp) (by simp) (by simp)

theorem oracleRead_keeps (s : State) : Keeps s (oracleRead s).2 :=
  .of_eq (by simp) (by simp) (by simp) (by simp) (by simp) (by simp) (by simp)

theorem store_keeps (a : LinAddr) (v : Byte) (s : State) : Keeps s (s.mapBus fun b => b.store a v) :=
  ⟨queueOk_congr rfl rfl rfl, .store _ _ _ .refl, rfl, rfl, List.suffix_refl _⟩

theorem mapEnv_keeps (f : Env → Env) (s : State) : Keeps s (s.mapEnv f) := .of_eq rfl rfl rfl rfl rfl rfl rfl

theorem dmaAccess_keeps (c : BitVec 2) (x : DmaChannel) (s : State) : Keeps s (dmaAccess c x s) := by
  unfold dmaAccess
  split
  · exact .refl s
  · exact ((oracleRead_keeps s).trans (store_keeps ..)).trans (record_keeps ..)
  · split
    · exact .refl s
    · exact (dispatchRead_keeps _ s).trans (record_keeps ..)
  · exact .refl s

theorem dmaTransfer_keeps (c : BitVec 2) (s : State) : Keeps s (dmaTransfer c s) := by
  simp only [dmaTransfer]
  exact (dmaAccess_keeps ..).trans (mapDev_keeps ..)

theorem sampleDreq_keeps (s : State) : Keeps s (sampleDreq s) := by
  unfold sampleDreq
  split
  · exact mapEnv_keeps ..
  · exact .refl s

theorem dmaBurst_keeps (n : Nat) (c : BitVec 2) (s : State) : Keeps s (dmaBurst n c s).2 := by
  induction n generalizing s with
  | zero => exact .refl s
  | succ n ih =>
    have h := dmaTransfer_keeps c s
    simp only [dmaBurst]
    split
    · exact h
    · split
      · exact h.trans (ih _)
      · split
        · exact (h.trans (sampleDreq_keeps _)).trans (ih _)
        · exact h.trans (sampleDreq_keeps _)
      · exact h
      · exact h

theorem dmaLoop_keeps (n : Nat) (done : List (BitVec 2)) (s : State) : Keeps s (dmaLoop n done s) := by
  induction n generalizing done s with
  | zero => exact .refl s
  | succ n ih =>
    have h := sampleDreq_keeps s
    simp only [dmaLoop]
    split
    · exact h
    · split
      · exact h.trans (.of_eq rfl rfl rfl rfl rfl rfl rfl)
      · exact ((h.trans (dmaBurst_keeps ..)).trans (mapDev_keeps ..)).trans (ih _ _)

theorem dmaStep_keeps (s : State) : Keeps s (dmaStep s) := by
  unfold dmaStep
  split
  · exact .refl s
  · exact dmaLoop_keeps _ _ s

theorem drawCounter_keeps (c : PitCounter) (s : State) : Keeps s (drawCounter c s).2 := by
  simp only [drawCounter]
  split
  · exact (bumpDraws_keeps s).trans (bumpDraws_keeps _)
  · exact .refl s

theorem pitClock_keeps (s : State) : Keeps s (pitClock s) := by
  simp only [pitClock, State.setPit]
  exact (((drawCounter_keeps ..).trans (drawCounter_keeps ..)).trans (drawCounter_keeps ..)).trans (mapDev_keeps ..)

theorem pitClocks_keeps (n : Nat) (s : State) : Keeps s (pitClocks n s) := by
  induction n generalizing s with
  | zero => exact .refl s
  | succ n ih => exact (pitClock_keeps s).trans (ih _)

theorem pitStep_keeps (n : Nat) (s : State) : Keeps s (pitStep n s) := by
  simp only [pitStep]
  split
  · exact pitClocks_keeps n s
  · exact .refl s

theorem takeCycles_keeps (s : State) : Keeps s (takeCycles s).2 := by
  unfold takeCycles
  split
  · dsimp only; exact mapEnv_keeps ..
  · exact bumpDraws_keeps s

theorem sampleNmi_keeps (s : State) : Keeps s (sampleNmi s) := .of_eq rfl rfl rfl rfl rfl rfl rfl

/-- The devices' part of a machine step. -/
theorem schedulerStep_keeps (s : State) : Keeps s (schedulerStep s) := by
  unfold schedulerStep
  refine Keeps.trans ?_ (sampleNmi_keeps _)
  refine Keeps.trans ?_ (mapDev_keeps _ _)
  refine Keeps.trans ?_ (dmaStep_keeps _)
  refine Keeps.trans ?_ (pitStep_keeps _ _)
  refine Keeps.trans (t := (takeCycles s).2) (takeCycles_keeps s) ?_
  exact .of_eq rfl rfl rfl rfl rfl rfl rfl

theorem afterCpuStep_keeps (s : State) : Keeps s (afterCpuStep s) := by
  unfold afterCpuStep
  split
  · exact .refl s
  · exact schedulerStep_keeps s

end Sys2Proof.Machine
end

