-- ==== Sys2Proof/Tests/Slice0.lean ====
section
/-! SUPPORT. The model's own tests: ill-formed terms that the checks refuse, every constructor's decoding from a word written
out of the encoding tables (30 R430 to R439, spec/opcode_table.json), one-step tests, and witnesses that the hypotheses of the
statements can be met. A test named after a vector of spec/95_test_vectors.md (dt1, ar1, ...) has its start and end from
there; the others' end values were worked out by hand from the rules of 41, 42 and 44. -/

namespace Sys2Proof.Tests

open Sys2Proof Sys2Proof.Machine Sys2Proof.Claims

/-! WellFormed: one ill-formed term for each check. -/

/-- `[BP]` with no displacement has no encoding (30 R421). -/
theorem test_wf_bp : (Instr.movGbEb .al (.mem (.base .bp))).wf = false ∧ (Instr.movGvEv .ax (.mem (.base .bp))).wf = false ∧
    (Instr.leaGvM .ax (.base .bp)).wf = false := by decide

/-- The reg field of the /1 to /7 rows is not 0 (30 R436). -/
theorem test_wf_reg : (Instr.pop8FRefused 0 (.reg .ax)).wf = false ∧ (Instr.movC6Refused 0 (.reg .al) 0).wf = false ∧
    (Instr.movC7Refused 0 (.reg .ax) 0).wf = false := by decide

/-- The reg field of group 4's refused rows is 2 to 7 (30 R434). -/
theorem test_wf_group4 : (Instr.feRefused 1 (.reg .al)).wf = false := by decide

/-- 90 is NOP (40 R621). -/
theorem test_wf_nop : (Instr.xchgAxR16 .ax).wf = false := by decide

/-! Decoding. -/

/-- The bytes decode to the instruction, all of them taken. -/
def reads (p : List Byte × Instr) : Bool :=
  match decode p.1 with
  | .ok (i, rest) => decide (i = p.2) && rest.isEmpty
  | .error _ => false

/-- ADD Eb, Gb to SBB Ev, Gv. -/
theorem test_decode_0 : [
    ([0x00, 0x88, 0x34, 0x12], .addEbGb (.mem (.baseD16 .bxSi 0x1234)) .cl),
    ([0x01, 0xE1], .addEvGv (.reg .cx) .sp),
    ([0x02, 0x39], .addGbEb .bh (.mem (.base .bxDi))),
    ([0x03, 0xD2], .addGvEv .dx (.reg .dx)),
    ([0x04, 0x9D], .addAlIb 0x9D),
    ([0x05, 0x2C, 0x91], .addAxIw 0x912C),
    ([0x08, 0x1E, 0xCD, 0xAB], .orEbGb (.mem (.direct 0xABCD)) .bl),
    ([0x09, 0xF3], .orEvGv (.reg .bx) .si),
    ([0x0A, 0x4A, 0xFE], .orGbEb .cl (.mem (.baseD8 .bpSi 0xFE))),
    ([0x0B, 0xE4], .orGvEv .sp (.reg .sp)),
    ([0x0C, 0xC7], .orAlIb 0xC7),
    ([0x0D, 0x6A, 0xA4], .orAxIw 0xA46A),
    ([0x10, 0x2B], .adcEbGb (.mem (.base .bpDi)) .ch),
    ([0x11, 0x83, 0x34, 0x12], .adcEvGv (.mem (.baseD16 .bpDi 0x1234)) .ax),
    ([0x12, 0xDE], .adcGbEb .bl (.reg .dh)),
    ([0x13, 0x34], .adcGvEv .si (.mem (.base .si))),
    ([0x14, 0xF1], .adcAlIb 0xF1),
    ([0x15, 0xA8, 0xB7], .adcAxIw 0xB7A8),
    ([0x18, 0xFF], .sbbEbGb (.reg .bh) .bh),
    ([0x19, 0x16, 0xCD, 0xAB], .sbbEvGv (.mem (.direct 0xABCD)) .dx)].all reads = true := by decide

/-- SBB Gb, Eb to XOR Gv, Ev. -/
theorem test_decode_1 : [
    ([0x1A, 0xE8], .sbbGbEb .ch (.reg .al)),
    ([0x1B, 0x45, 0xFE], .sbbGvEv .ax (.mem (.baseD8 .di 0xFE))),
    ([0x1C, 0x1B], .sbbAlIb 0x1B),
    ([0x1D, 0xE6, 0xCA], .sbbAxIw 0xCAE6),
    ([0x20, 0xC9], .andEbGb (.reg .cl) .cl),
    ([0x21, 0x27], .andEvGv (.mem (.base .bx)) .sp),
    ([0x22, 0xBE, 0x34, 0x12], .andGbEb .bh (.mem (.baseD16 .bp 0x1234))),
    ([0x23, 0xD3], .andGvEv .dx (.reg .bx)),
    ([0x24, 0x45], .andAlIb 0x45),
    ([0x25, 0x24, 0xDE], .andAxIw 0xDE24),
    ([0x28, 0x18], .subEbGb (.mem (.base .bxSi)) .bl),
    ([0x29, 0xF4], .subEvGv (.reg .sp) .si),
    ([0x2A, 0x0E, 0xCD, 0xAB], .subGbEb .cl (.mem (.direct 0xABCD))),
    ([0x2B, 0xE5], .subGvEv .sp (.reg .bp)),
    ([0x2C, 0x6F], .subAlIb 0x6F),
    ([0x2D, 0x62, 0xF1], .subAxIw 0xF162),
    ([0x30, 0x68, 0xFE], .xorEbGb (.mem (.baseD8 .bxSi 0xFE)) .ch),
    ([0x31, 0xC6], .xorEvGv (.reg .si) .ax),
    ([0x32, 0x1A], .xorGbEb .bl (.mem (.base .bpSi))),
    ([0x33, 0xB1, 0x34, 0x12], .xorGvEv .si (.mem (.baseD16 .bxDi 0x1234)))].all reads = true := by decide

/-- XOR AL, Ib to JA rel8. -/
theorem test_decode_2 : [
    ([0x34, 0x99], .xorAlIb 0x99),
    ([0x35, 0xA0, 0x04], .xorAxIw 0x04A0),
    ([0x38, 0xF8], .cmpEbGb (.reg .al) .bh),
    ([0x39, 0x13], .cmpEvGv (.mem (.base .bpDi)) .dx),
    ([0x3A, 0xE9], .cmpGbEb .ch (.reg .cl)),
    ([0x3B, 0x06, 0xCD, 0xAB], .cmpGvEv .ax (.mem (.direct 0xABCD))),
    ([0x3C, 0xC3], .cmpAlIb 0xC3),
    ([0x3D, 0xDE, 0x17], .cmpAxIw 0x17DE),
    ([0x40], .incR16 .ax),
    ([0x49], .decR16 .cx),
    ([0x52], .pushR16 .dx),
    ([0x5B], .popR16 .bx),
    ([0x70, 0xED], .jo 0xED),
    ([0x71, 0xF4], .jno 0xF4),
    ([0x72, 0xFB], .jb 0xFB),
    ([0x73, 0x02], .jnb 0x02),
    ([0x74, 0x09], .jz 0x09),
    ([0x75, 0x10], .jnz 0x10),
    ([0x76, 0x17], .jbe 0x17),
    ([0x77, 0x1E], .ja 0x1E)].all reads = true := by decide

/-- JS rel8 to ADC Ev, Iw. -/
theorem test_decode_3 : [
    ([0x78, 0x25], .js 0x25),
    ([0x79, 0x2C], .jns 0x2C),
    ([0x7A, 0x33], .jp 0x33),
    ([0x7B, 0x3A], .jnp 0x3A),
    ([0x7C, 0x41], .jl 0x41),
    ([0x7D, 0x48], .jge 0x48),
    ([0x7E, 0x4F], .jle 0x4F),
    ([0x7F, 0x56], .jg 0x56),
    ([0x64, 0x5D], .jccAlias 4 0x5D),
    ([0x80, 0xC2, 0x64], .addEbIb (.reg .dl) 0x64),
    ([0x80, 0x4B, 0xFE, 0x6B], .orEbIb (.mem (.baseD8 .bpDi 0xFE)) 0x6B),
    ([0x80, 0xD3, 0x72], .adcEbIb (.reg .bl) 0x72),
    ([0x80, 0x1D, 0x79], .sbbEbIb (.mem (.base .di)) 0x79),
    ([0x80, 0xA4, 0x34, 0x12, 0x80], .andEbIb (.mem (.baseD16 .si 0x1234)) 0x80),
    ([0x80, 0xED, 0x87], .subEbIb (.reg .ch) 0x87),
    ([0x80, 0x37, 0x8E], .xorEbIb (.mem (.base .bx)) 0x8E),
    ([0x80, 0xFE, 0x95], .cmpEbIb (.reg .dh) 0x95),
    ([0x81, 0x06, 0xCD, 0xAB, 0x14, 0x78], .addEvIw (.mem (.direct 0xABCD)) 0x7814),
    ([0x81, 0xCF, 0x49, 0x7B], .orEvIw (.reg .di) 0x7B49),
    ([0x81, 0x56, 0xFE, 0x7E, 0x7E], .adcEvIw (.mem (.baseD8 .bp 0xFE)) 0x7E7E)].all reads = true := by decide

/-- SBB Ev, Iw to XOR Ev, sext(Ib). -/
theorem test_decode_4 : [
    ([0x81, 0xD8, 0xB3, 0x81], .sbbEvIw (.reg .ax) 0x81B3),
    ([0x81, 0x21, 0xE8, 0x84], .andEvIw (.mem (.base .bxDi)) 0x84E8),
    ([0x81, 0xAF, 0x34, 0x12, 0x1D, 0x88], .subEvIw (.mem (.baseD16 .bx 0x1234)) 0x881D),
    ([0x81, 0xF2, 0x52, 0x8B], .xorEvIw (.reg .dx) 0x8B52),
    ([0x81, 0x3A, 0x87, 0x8E], .cmpEvIw (.mem (.base .bpSi)) 0x8E87),
    ([0x82, 0xC3, 0xD4], .addEbIbAlias (.reg .bl) 0xD4),
    ([0x82, 0x0E, 0xCD, 0xAB, 0xDB], .orEbIbAlias (.mem (.direct 0xABCD)) 0xDB),
    ([0x82, 0xD4, 0xE2], .adcEbIbAlias (.reg .ah) 0xE2),
    ([0x82, 0x59, 0xFE, 0xE9], .sbbEbIbAlias (.mem (.baseD8 .bxDi 0xFE)) 0xE9),
    ([0x82, 0xE5, 0xF0], .andEbIbAlias (.reg .ch) 0xF0),
    ([0x82, 0x2C, 0xF7], .subEbIbAlias (.mem (.base .si)) 0xF7),
    ([0x82, 0xB2, 0x34, 0x12, 0xFE], .xorEbIbAlias (.mem (.baseD16 .bpSi 0x1234)) 0xFE),
    ([0x82, 0xFF, 0x05], .cmpEbIbAlias (.reg .bh) 0x05),
    ([0x83, 0x05, 0x0C], .addEvIbSx (.mem (.base .di)) 0x0C),
    ([0x83, 0xC8, 0x13], .orEvIbSx (.reg .ax) 0x13),
    ([0x83, 0x16, 0xCD, 0xAB, 0x1A], .adcEvIbSx (.mem (.direct 0xABCD)) 0x1A),
    ([0x83, 0xD9, 0x21], .sbbEvIbSx (.reg .cx) 0x21),
    ([0x83, 0x64, 0xFE, 0x28], .andEvIbSx (.mem (.baseD8 .si 0xFE)) 0x28),
    ([0x83, 0xEA, 0x2F], .subEvIbSx (.reg .dx) 0x2F),
    ([0x83, 0x30, 0x36], .xorEvIbSx (.mem (.base .bxSi)) 0x36)].all reads = true := by decide

/-- CMP Ev, sext(Ib) to MOV SS, Ew (alias reg 6). -/
theorem test_decode_5 : [
    ([0x83, 0xBD, 0x34, 0x12, 0x3D], .cmpEvIbSx (.mem (.baseD16 .di 0x1234)) 0x3D),
    ([0x84, 0xC4], .testEbGb (.reg .ah) .al),
    ([0x85, 0x19], .testEvGv (.mem (.base .bxDi)) .bx),
    ([0x86, 0xF5], .xchgEbGb (.reg .ch) .dh),
    ([0x87, 0x0E, 0xCD, 0xAB], .xchgEvGv (.mem (.direct 0xABCD)) .cx),
    ([0x88, 0xE6], .movEbGb (.reg .dh) .ah),
    ([0x89, 0x7F, 0xFE], .movEvGv (.mem (.baseD8 .bx 0xFE)) .di),
    ([0x8A, 0xD7], .movGbEb .dl (.reg .bh)),
    ([0x8B, 0x2B], .movGvEv .bp (.mem (.base .bpDi))),
    ([0x8C, 0x88, 0x34, 0x12], .movEwSw (.mem (.baseD16 .bxSi 0x1234)) .cs),
    ([0x8C, 0xF1], .movEwSwAlias (.reg .cx) .ss),
    ([0x8D, 0x34], .leaGvM .si (.base .si)),
    ([0x8D, 0xC8], .leaGvRegRefused .cx .ax),
    ([0x8E, 0xC2], .movEsEw (.reg .dx)),
    ([0x8E, 0x0E, 0xCD, 0xAB], .movCsEwRefused1 (.mem (.direct 0xABCD))),
    ([0x8E, 0xD3], .movSsEw (.reg .bx)),
    ([0x8E, 0x5A, 0xFE], .movDsEw (.mem (.baseD8 .bpSi 0xFE))),
    ([0x8E, 0xE4], .movEsEwAlias (.reg .sp)),
    ([0x8E, 0x2F], .movCsEwRefused5 (.mem (.base .bx))),
    ([0x8E, 0xB3, 0x34, 0x12], .movSsEwAlias (.mem (.baseD16 .bpDi 0x1234)))].all reads = true := by decide

/-- MOV DS, Ew (alias reg 7) to LES Gv, reg (refused). -/
theorem test_decode_6 : [
    ([0x8E, 0xFE], .movDsEwAlias (.reg .si)),
    ([0x8F, 0x00], .popEv (.mem (.base .bxSi))),
    ([0x8F, 0xE7], .pop8FRefused 4 (.reg .di)),
    ([0x93], .xchgAxR16 .bx),
    ([0x9A, 0xCF, 0x0E, 0xCF, 0x0E], .callPtr 0x0ECF 0x0ECF),
    ([0xA0, 0x04, 0x12], .movAlMoffs 0x1204),
    ([0xA1, 0x39, 0x15], .movAxMoffs 0x1539),
    ([0xA2, 0x6E, 0x18], .movMoffsAl 0x186E),
    ([0xA3, 0xA3, 0x1B], .movMoffsAx 0x1BA3),
    ([0xA8, 0x08], .testAlIb 0x08),
    ([0xA9, 0x0D, 0x22], .testAxIw 0x220D),
    ([0xB3, 0x16], .movR8Ib .bl 0x16),
    ([0xBC, 0x77, 0x28], .movR16Iw .sp 0x2877),
    ([0xC0, 0xAC, 0x2B], .retIwAlias 0x2BAC),
    ([0xC2, 0xE1, 0x2E], .retIw 0x2EE1),
    ([0xC8, 0x16, 0x32], .retfIwAlias 0x3216),
    ([0xCA, 0x4B, 0x35], .retfIw 0x354B),
    ([0xCD, 0x40], .intIb 0x40),
    ([0xC4, 0xBC, 0x34, 0x12], .lesGvMp .di (.baseD16 .si 0x1234)),
    ([0xC4, 0xD3], .lesGvRegRefused .dx .bx)].all reads = true := by decide

/-- LDS Gv, Mp to SHR Ev, 1. -/
theorem test_decode_7 : [
    ([0xC5, 0x2E, 0xCD, 0xAB], .ldsGvMp .bp (.direct 0xABCD)),
    ([0xC5, 0xC5], .ldsGvRegRefused .ax .bp),
    ([0xC6, 0xC0, 0x63], .movEbIb (.reg .al) 0x63),
    ([0xC6, 0x7D, 0xFE, 0x6A], .movC6Refused 7 (.mem (.baseD8 .di 0xFE)) 0x6A),
    ([0xC7, 0xC1, 0xF3, 0x4E], .movEvIw (.reg .cx) 0x4EF3),
    ([0xC7, 0x1A, 0x28, 0x52], .movC7Refused 3 (.mem (.base .bpSi)) 0x5228),
    ([0xD0, 0x86, 0x34, 0x12], .rolEb1 (.mem (.baseD16 .bp 0x1234))),
    ([0xD0, 0xCB], .rorEb1 (.reg .bl)),
    ([0xD0, 0x13], .rclEb1 (.mem (.base .bpDi))),
    ([0xD0, 0xDC], .rcrEb1 (.reg .ah)),
    ([0xD0, 0x26, 0xCD, 0xAB], .shlEb1 (.mem (.direct 0xABCD))),
    ([0xD0, 0xED], .shrEb1 (.reg .ch)),
    ([0xD0, 0x70, 0xFE], .setmoEb1 (.mem (.baseD8 .bxSi 0xFE))),
    ([0xD0, 0xFE], .sarEb1 (.reg .dh)),
    ([0xD1, 0x05], .rolEv1 (.mem (.base .di))),
    ([0xD1, 0x89, 0x34, 0x12], .rorEv1 (.mem (.baseD16 .bxDi 0x1234))),
    ([0xD1, 0xD0], .rclEv1 (.reg .ax)),
    ([0xD1, 0x1F], .rcrEv1 (.mem (.base .bx))),
    ([0xD1, 0xE1], .shlEv1 (.reg .cx)),
    ([0xD1, 0x2E, 0xCD, 0xAB], .shrEv1 (.mem (.direct 0xABCD)))].all reads = true := by decide

/-- SETMO Ev, 1 to AAD Ib. -/
theorem test_decode_8 : [
    ([0xD1, 0xF2], .setmoEv1 (.reg .dx)),
    ([0xD1, 0x7B, 0xFE], .sarEv1 (.mem (.baseD8 .bpDi 0xFE))),
    ([0xD2, 0xC3], .rolEbCl (.reg .bl)),
    ([0xD2, 0x09], .rorEbCl (.mem (.base .bxDi))),
    ([0xD2, 0x94, 0x34, 0x12], .rclEbCl (.mem (.baseD16 .si 0x1234))),
    ([0xD2, 0xDD], .rcrEbCl (.reg .ch)),
    ([0xD2, 0x22], .shlEbCl (.mem (.base .bpSi))),
    ([0xD2, 0xEE], .shrEbCl (.reg .dh)),
    ([0xD2, 0x36, 0xCD, 0xAB], .setmocEbCl (.mem (.direct 0xABCD))),
    ([0xD2, 0xFF], .sarEbCl (.reg .bh)),
    ([0xD3, 0x46, 0xFE], .rolEvCl (.mem (.baseD8 .bp 0xFE))),
    ([0xD3, 0xC8], .rorEvCl (.reg .ax)),
    ([0xD3, 0x14], .rclEvCl (.mem (.base .si))),
    ([0xD3, 0x9F, 0x34, 0x12], .rcrEvCl (.mem (.baseD16 .bx 0x1234))),
    ([0xD3, 0xE2], .shlEvCl (.reg .dx)),
    ([0xD3, 0x2D], .shrEvCl (.mem (.base .di))),
    ([0xD3, 0xF3], .setmocEvCl (.reg .bx)),
    ([0xD3, 0x3E, 0xCD, 0xAB], .sarEvCl (.mem (.direct 0xABCD))),
    ([0xD4, 0x5F], .aamIb 0x5F),
    ([0xD5, 0x66], .aadIb 0x66)].all reads = true := by decide

/-- ESC to DIV Eb. -/
theorem test_decode_9 : [
    ([0xD9, 0xEC], .esc 0x0D (.reg .sp)),
    ([0xE0, 0x74], .loopnz 0x74),
    ([0xE1, 0x7B], .loopz 0x7B),
    ([0xE2, 0x82], .loop 0x82),
    ([0xE3, 0x89], .jcxz 0x89),
    ([0xE4, 0x90], .inAlIb 0x90),
    ([0xE5, 0x97], .inAxIb 0x97),
    ([0xE6, 0x9E], .outIbAl 0x9E),
    ([0xE7, 0xA5], .outIbAx 0xA5),
    ([0xE8, 0x44, 0xDF], .callRel16 0xDF44),
    ([0xE9, 0x79, 0xE2], .jmpRel16 0xE279),
    ([0xEA, 0xAE, 0xE5, 0xAE, 0xE5], .jmpPtr 0xE5AE 0xE5AE),
    ([0xEB, 0xC1], .jmpRel8 0xC1),
    ([0xF6, 0x41, 0xFE, 0xC8], .testEbIb (.mem (.baseD8 .bxDi 0xFE)) 0xC8),
    ([0xF6, 0xCD, 0xCF], .testEbIbAlias (.reg .ch) 0xCF),
    ([0xF6, 0x10], .notEb (.mem (.base .bxSi))),
    ([0xF6, 0x9A, 0x34, 0x12], .negEb (.mem (.baseD16 .bpSi 0x1234))),
    ([0xF6, 0xE7], .mulEb (.reg .bh)),
    ([0xF6, 0x29], .imulEb (.mem (.base .bxDi))),
    ([0xF6, 0xF0], .divEb (.reg .al))].all reads = true := by decide

/-- IDIV Eb to CALL Mp, mod = 11 (refused). -/
theorem test_decode_10 : [
    ([0xF6, 0x3E, 0xCD, 0xAB], .idivEb (.mem (.direct 0xABCD))),
    ([0xF7, 0xC1, 0xC0, 0x05], .testEvIw (.reg .cx) 0x05C0),
    ([0xF7, 0x4C, 0xFE, 0xF5, 0x08], .testEvIwAlias (.mem (.baseD8 .si 0xFE)) 0x08F5),
    ([0xF7, 0xD2], .notEv (.reg .dx)),
    ([0xF7, 0x1B], .negEv (.mem (.base .bpDi))),
    ([0xF7, 0xA5, 0x34, 0x12], .mulEv (.mem (.baseD16 .di 0x1234))),
    ([0xF7, 0xEC], .imulEv (.reg .sp)),
    ([0xF7, 0x34], .divEv (.mem (.base .si))),
    ([0xF7, 0xFD], .idivEv (.reg .bp)),
    ([0xFE, 0x06, 0xCD, 0xAB], .incEb (.mem (.direct 0xABCD))),
    ([0xFE, 0xCE], .decEb (.reg .dh)),
    ([0xFE, 0x5F, 0xFE], .feRefused 3 (.mem (.baseD8 .bx 0xFE))),
    ([0xFF, 0xC7], .incEv (.reg .di)),
    ([0xFF, 0x0F], .decEv (.mem (.base .bx))),
    ([0xFF, 0x90, 0x34, 0x12], .callEv (.mem (.baseD16 .bxSi 0x1234))),
    ([0xFF, 0x1E, 0xCD, 0xAB], .callMp (.direct 0xABCD)),
    ([0xFF, 0x20], .jmpEv (.mem (.base .bxSi))),
    ([0xFF, 0x69, 0xFE], .jmpMp (.baseD8 .bxDi 0xFE)),
    ([0xFF, 0x36, 0xCD, 0xAB], .pushEv (.mem (.direct 0xABCD))),
    ([0xFF, 0xDB], .callMpRegRefused .bx)].all reads = true := by decide

/-- JMP Mp, mod = 11 (refused) to CBW. -/
theorem test_decode_11 : [
    ([0xFF, 0xEC], .jmpMpRegRefused .sp),
    ([0xFF, 0xFB], .ff7Refused (.reg .bx)),
    ([0x06], .pushEs),
    ([0x07], .popEs),
    ([0x0E], .pushCs),
    ([0x0F], .popCsRefused),
    ([0x16], .pushSs),
    ([0x17], .popSs),
    ([0x1E], .pushDs),
    ([0x1F], .popDs),
    ([0x26], .prefixEs),
    ([0x2E], .prefixCs),
    ([0x36], .prefixSs),
    ([0x3E], .prefixDs),
    ([0x27], .daa),
    ([0x2F], .das),
    ([0x37], .aaa),
    ([0x3F], .aas),
    ([0x90], .nop),
    ([0x98], .cbw)].all reads = true := by decide

/-- CWD to RETF. -/
theorem test_decode_12 : [
    ([0x99], .cwd),
    ([0x9B], .wait),
    ([0x9C], .pushf),
    ([0x9D], .popf),
    ([0x9E], .sahf),
    ([0x9F], .lahf),
    ([0xA4], .movsb),
    ([0xA5], .movsw),
    ([0xA6], .cmpsb),
    ([0xA7], .cmpsw),
    ([0xAA], .stosb),
    ([0xAB], .stosw),
    ([0xAC], .lodsb),
    ([0xAD], .lodsw),
    ([0xAE], .scasb),
    ([0xAF], .scasw),
    ([0xC1], .retAlias),
    ([0xC3], .ret),
    ([0xC9], .retfAlias),
    ([0xCB], .retf)].all reads = true := by decide

/-- INT 3 to STD. -/
theorem test_decode_13 : [
    ([0xCC], .int3),
    ([0xCE], .into),
    ([0xCF], .iret),
    ([0xD6], .salc),
    ([0xD7], .xlat),
    ([0xEC], .inAlDx),
    ([0xED], .inAxDx),
    ([0xEE], .outDxAl),
    ([0xEF], .outDxAx),
    ([0xF0], .prefixLock),
    ([0xF2], .prefixRepne),
    ([0xF3], .prefixRep),
    ([0xF4], .hlt),
    ([0xF5], .cmc),
    ([0xF8], .clc),
    ([0xF9], .stc),
    ([0xFA], .cli),
    ([0xFB], .sti),
    ([0xFC], .cld),
    ([0xFD], .std)].all reads = true := by decide

/-- LOCK (prefix, alias of F0) to LOCK (prefix, alias of F0). -/
theorem test_decode_14 : [
    ([0xF1], .prefixLockAlias)].all reads = true := by decide

/-- A byte list that ends inside an instruction does not decode (60 R1202). -/
theorem test_decode_truncated : decode [0x81, 0x86, 0x34, 0x12, 0x78] = .error .truncated ∧ decode [] = .error .truncated := by
  exact ⟨rfl, rfl⟩

/-- The table's numbering: the opcode in the most significant byte (30 R439; log 12). -/
theorem test_tableWord : decodeTableWord 16 0xF638 = some (.idivEb (.mem (.base .bxSi))) ∧
    decodeTableWord 16 0xEA00 = some (.jmpPtr 0 0) ∧ decodeTableWord 8 0xC3 = some .ret ∧ decodeTableWord 8 0xC300 = some .ret :=
  ⟨rfl, rfl, rfl, rfl⟩

/-! One-step tests. -/

/-- A CPU of a direct start (95, Conventions): all registers 0 but those listed, CS = 0, IP = 0x0100, FLAGS 0xF002. -/
def cpu (rs : List (Reg16 × Word)) (gs : List (Sreg × Word) := []) (fl : Word := 0xF002) (ip : Word := 0x0100) : Cpu :=
  { Cpu.reset with
    regs := rs.foldl (fun f p => f.set p.1 p.2) Cpu.reset.regs
    segs := gs.foldl (fun f p => f.set p.1 p.2) { es := 0, cs := 0, ss := 0, ds := 0 }
    flags := flagsOfWord fl, ip := ip }

/-- Bytes stored from a linear address on. -/
def put (m : Memory) (a : Nat) : List Byte → Memory
  | [] => m
  | b :: bs => put (memSet m a b) (a + 1) bs

/-- A machine with that CPU, its code at CS:IP and the memory listed; no prefetching beyond what each fetch needs, and
`UNDOC_MODE = alias`, so that the alias rows run. -/
def boot (c : Cpu) (mem : List (Nat × List Byte)) (code : List Byte) : State :=
  let s := { State.reset with
    cpu := c, biu := { State.reset.biu with pfp := c.ip }, env := { Env.quiet with euClocks := List.replicate 64 0 }
    params := { Params.model with undocMode := .asAlias } }
  { s with bus := { s.bus with mem := put (mem.foldl (fun m p => put m p.1 p.2) []) (lin c.segs.cs c.ip).toNat code } }

/-- One CPU step leads to a state of which p holds. -/
def after (c : Cpu) (mem : List (Nat × List Byte)) (code : List Byte) (p : State → Bool) : Bool :=
  match cpuStep (boot c mem code) with
  | .next t => p t
  | _ => false

/-- One CPU step is refused as a form the spec has no meaning for. -/
def refuses (code : List Byte) : Bool :=
  match cpuStep (boot (cpu []) [] code) with
  | .refused (.unmodelledForm _ _) => true
  | _ => false

/-- The word at a linear address. -/
def wordAt (t : State) (a : LinAddr) : Word := mkWord (t.bus.byte (a + 1)) (t.bus.byte a)

/-! The vectors of spec/95_test_vectors.md. -/

theorem test_dt1 : (after (cpu [(.bx, 0x1234)]) [] [0x89, 0xD8] fun t =>
    t.reg16 .ax == 0x1234 && t.cpu.ip == 0x0102) = true := by decide

theorem test_dt2 : (after (cpu [(.bx, 0x0020)] [(.ds, 0x1000)]) [(0x10020, [0x5A])] [0x8A, 0x07] fun t =>
    t.reg8 .al == 0x5A) = true := by decide

theorem test_dt3 : (after (cpu [(.ax, 0x00FF), (.bx, 0x0010)]) [] [0x88, 0x07] fun t =>
    t.bus.byte 0x00010 == 0xFF) = true := by decide

theorem test_dt4 : (after (cpu [] [(.ds, 0x1234)]) [] [0x8C, 0xD8] fun t =>
    t.reg16 .ax == 0x1234) = true := by decide

theorem test_dt5 : (after (cpu [(.ax, 0x2000)]) [] [0x8E, 0xD0] fun t =>
    t.seg .ss == 0x2000 && t.cpu.inhibit) = true := by decide

theorem test_dt6 : (after (cpu []) [(0x01234, [0xCD, 0xAB])] [0xA1, 0x34, 0x12] fun t =>
    t.reg16 .ax == 0xABCD && t.cpu.ip == 0x0103) = true := by decide

theorem test_dt7 : (after (cpu [(.ax, 0x0077)]) [] [0xA2, 0x00, 0x02] fun t =>
    t.bus.byte 0x00200 == 0x77) = true := by decide

theorem test_dt8 : (after (cpu [(.ax, 0x0034)]) [] [0xB4, 0x12] fun t =>
    t.reg16 .ax == 0x1234) = true := by decide

theorem test_dt9 : (after (cpu []) [] [0xBB, 0x78, 0x56] fun t =>
    t.reg16 .bx == 0x5678 && t.cpu.ip == 0x0103) = true := by decide

theorem test_dt10 : (after (cpu []) [] [0xC7, 0x06, 0x00, 0x02, 0xCD, 0xAB] fun t =>
    wordAt t 0x00200 == 0xABCD && t.cpu.ip == 0x0106) = true := by decide

theorem test_dt12 : (after (cpu [(.sp, 0x0100)]) [] [0x54] fun t =>
    t.reg16 .sp == 0x00FE && wordAt t 0x000FE == 0x00FE) = true := by decide

theorem test_dt13 : (after (cpu [(.sp, 0x0100)]) [(0x000FE, [0xFF, 0xFF])] [0x0E] fun t =>
    t.reg16 .sp == 0x00FE && wordAt t 0x000FE == 0x0000) = true := by decide

theorem test_dt14 : (after (cpu [(.ax, 0xBEEF)]) [] [0x50] fun t =>
    t.reg16 .sp == 0xFFFE && wordAt t 0x0FFFE == 0xBEEF) = true := by decide

theorem test_dt15 : (after (cpu [(.sp, 0x00FE)]) [(0x000FE, [0x78, 0x56])] [0x5B] fun t =>
    t.reg16 .bx == 0x5678 && t.reg16 .sp == 0x0100) = true := by decide

theorem test_dt16 : (after (cpu [(.sp, 0x00FE)]) [(0x000FE, [0x00, 0x10])] [0x5C] fun t =>
    t.reg16 .sp == 0x1000) = true := by decide

theorem test_dt17 : (after (cpu [(.sp, 0x00FE)]) [(0x000FE, [0x00, 0x30])] [0x17] fun t =>
    t.seg .ss == 0x3000 && t.reg16 .sp == 0x0100 && t.cpu.inhibit) = true := by decide

theorem test_dt18 : (after (cpu [(.sp, 0x00FE)]) [(0x000FE, [0x21, 0x43])] [0x8F, 0xC0] fun t =>
    t.reg16 .ax == 0x4321 && t.reg16 .sp == 0x0100) = true := by decide

theorem test_dt19 : (after (cpu [(.sp, 0x0100)]) [(0x00200, [0xCD, 0xAB])] [0xFF, 0x36, 0x00, 0x02] fun t =>
    wordAt t 0x000FE == 0xABCD && t.reg16 .sp == 0x00FE) = true := by decide

theorem test_dt20 : (after (cpu [(.sp, 0x0100)] [] 0xF043) [] [0x9C] fun t =>
    wordAt t 0x000FE == 0xF043) = true := by decide

theorem test_dt21 : (after (cpu [(.sp, 0x00FE)]) [(0x000FE, [0xFF, 0xFF])] [0x9D] fun t =>
    t.cpu.flags.image == 0xFFD7) = true := by decide

theorem test_dt22 : (after (cpu [(.sp, 0x00FE)] [] 0xFFD7) [] [0x9D] fun t =>
    t.cpu.flags.image == 0xF002) = true := by decide

theorem test_dt23 : (after (cpu [(.ax, 0x1234)]) [] [0x86, 0xC4] fun t =>
    t.reg16 .ax == 0x3412) = true := by decide

theorem test_dt24 : (after (cpu [(.ax, 0x1111), (.bx, 0x2222)]) [] [0x93] fun t =>
    t.reg16 .ax == 0x2222 && t.reg16 .bx == 0x1111) = true := by decide

theorem test_dt25 : (after (cpu [(.ax, 0x1200)]) [] [0xE4, 0x99] fun t =>
    t.reg16 .ax == 0x12FF) = true := by decide

theorem test_dt26 : (after (cpu [(.dx, 0x0099)]) [] [0xED] fun t =>
    t.reg16 .ax == 0xFFFF && t.history.head? == some (.ioRead 0x9A 0xFF)) = true := by decide

theorem test_dt27 : (after (cpu [(.dx, 0x0099), (.ax, 0xBEEF)]) [] [0xEF] fun t =>
    t.history.head? == some (.ioWrite 0x9A 0xBE)) = true := by decide

theorem test_dt28 : (after (cpu [(.bx, 0x0300), (.ax, 0x0005)]) [(0x00305, [0x42])] [0xD7] fun t =>
    t.reg8 .al == 0x42) = true := by decide

theorem test_dt29 : (after (cpu [(.bx, 0x0300), (.ax, 0x0005)] [(.es, 0x1000)]) [(0x10305, [0x99])] [0x26, 0xD7] fun t =>
    t.reg8 .al == 0x99) = true := by decide

theorem test_dt30 : (after (cpu [(.bx, 0x0010), (.si, 0x0020)]) [] [0x8D, 0x40, 0x05] fun t =>
    t.reg16 .ax == 0x0035) = true := by decide

theorem test_dt31 : (after (cpu [(.bx, 0xFFFF), (.si, 0x0002)]) [] [0x8D, 0x00] fun t =>
    t.reg16 .ax == 0x0001) = true := by decide

theorem test_dt32 : (after (cpu []) [(0x00400, [0x34, 0x12, 0x00, 0x20])] [0xC5, 0x1E, 0x00, 0x04] fun t =>
    t.reg16 .bx == 0x1234 && t.seg .ds == 0x2000) = true := by decide

theorem test_dt33 : (after (cpu []) [(0x00400, [0x78, 0x56, 0x00, 0x30])] [0xC4, 0x3E, 0x00, 0x04] fun t =>
    t.reg16 .di == 0x5678 && t.seg .es == 0x3000) = true := by decide

theorem test_dt34 : (after (cpu [] [] 0xF043) [] [0x9F] fun t =>
    t.reg16 .ax == 0x4300) = true := by decide

theorem test_dt35 : (after (cpu [(.ax, 0xFF00)]) [] [0x9E] fun t =>
    t.cpu.flags.image == 0xF0D7) = true := by decide

theorem test_dt36 : refuses [0x8D, 0xC0] = true := by decide

theorem test_dt37 : refuses [0x8E, 0xC8] = true := by decide

theorem test_dt38 : (after (cpu [(.ax, 0x4000)]) [] [0x8E, 0xE0] fun t =>
    t.seg .es == 0x4000 && t.cpu.inhibit) = true := by decide

theorem test_ar1 : (after (cpu [(.ax, 0x0001)]) [] [0x04, 0xFF] fun t =>
    t.reg16 .ax == 0x0000 && t.cpu.flags.cf && t.cpu.flags.pf && t.cpu.flags.af && t.cpu.flags.zf && !t.cpu.flags.sf &&
      !t.cpu.flags.ovf) = true := by decide

theorem test_ar2 : (after (cpu [(.ax, 0x007F)]) [] [0x04, 0x01] fun t =>
    t.reg16 .ax == 0x0080 && !t.cpu.flags.cf && !t.cpu.flags.pf && t.cpu.flags.af && !t.cpu.flags.zf && t.cpu.flags.sf &&
      t.cpu.flags.ovf) = true := by decide

theorem test_ar3 : (after (cpu [(.ax, 0x8000)]) [] [0x05, 0x00, 0x80] fun t =>
    t.reg16 .ax == 0x0000 && t.cpu.flags.cf && t.cpu.flags.pf && !t.cpu.flags.af && t.cpu.flags.zf && !t.cpu.flags.sf &&
      t.cpu.flags.ovf) = true := by decide

theorem test_ar4 : (after (cpu [(.ax, 0x0001)]) [] [0x83, 0xC0, 0xFF] fun t =>
    t.reg16 .ax == 0x0000 && t.cpu.flags.cf && t.cpu.flags.pf && t.cpu.flags.af && t.cpu.flags.zf && !t.cpu.flags.sf &&
      !t.cpu.flags.ovf) = true := by decide

theorem test_ar6 : (after (cpu [(.ax, 0x00FF)] [] 0xF003) [] [0x14, 0x00] fun t =>
    t.reg16 .ax == 0x0000 && t.cpu.flags.cf && t.cpu.flags.pf && t.cpu.flags.af && t.cpu.flags.zf && !t.cpu.flags.sf &&
      !t.cpu.flags.ovf) = true := by decide

theorem test_ar7 : (after (cpu [(.ax, 0x7FFF)] [] 0xF003) [] [0x15, 0x00, 0x00] fun t =>
    t.reg16 .ax == 0x8000 && !t.cpu.flags.cf && t.cpu.flags.pf && t.cpu.flags.af && !t.cpu.flags.zf && t.cpu.flags.sf &&
      t.cpu.flags.ovf) = true := by decide

theorem test_ar8 : (after (cpu [(.ax, 0x0000)]) [] [0x2C, 0x01] fun t =>
    t.reg16 .ax == 0x00FF && t.cpu.flags.cf && t.cpu.flags.pf && t.cpu.flags.af && !t.cpu.flags.zf && t.cpu.flags.sf &&
      !t.cpu.flags.ovf) = true := by decide

theorem test_ar10 : (after (cpu [(.ax, 0x1000)]) [] [0x2D, 0x00, 0x20] fun t =>
    t.reg16 .ax == 0xF000 && t.cpu.flags.cf && t.cpu.flags.pf && !t.cpu.flags.af && !t.cpu.flags.zf && t.cpu.flags.sf &&
      !t.cpu.flags.ovf) = true := by decide

theorem test_ar11 : (after (cpu [(.ax, 0x0000)] [] 0xF003) [] [0x1C, 0x00] fun t =>
    t.reg16 .ax == 0x00FF && t.cpu.flags.cf && t.cpu.flags.pf && t.cpu.flags.af && !t.cpu.flags.zf && t.cpu.flags.sf &&
      !t.cpu.flags.ovf) = true := by decide

theorem test_ar12 : (after (cpu [(.ax, 0x0005)] [] 0xF003) [] [0x1D, 0x03, 0x00] fun t =>
    t.reg16 .ax == 0x0001 && !t.cpu.flags.cf && !t.cpu.flags.pf && !t.cpu.flags.af && !t.cpu.flags.zf &&
      !t.cpu.flags.sf && !t.cpu.flags.ovf) = true := by decide

theorem test_ar14 : (after (cpu []) [] [0x3D, 0x01, 0x00] fun t =>
    t.reg16 .ax == 0x0000 && t.cpu.flags.cf && t.cpu.flags.pf && t.cpu.flags.af && !t.cpu.flags.zf && t.cpu.flags.sf &&
      !t.cpu.flags.ovf) = true := by decide

theorem test_ar15 : (after (cpu [(.ax, 0xFFFF)]) [] [0x40] fun t =>
    t.reg16 .ax == 0x0000 && !t.cpu.flags.cf && t.cpu.flags.pf && t.cpu.flags.af && t.cpu.flags.zf && !t.cpu.flags.sf &&
      !t.cpu.flags.ovf) = true := by decide

theorem test_ar16 : (after (cpu [(.ax, 0x7FFF)] [] 0xF003) [] [0x40] fun t =>
    t.reg16 .ax == 0x8000 && t.cpu.flags.cf && t.cpu.flags.pf && t.cpu.flags.af && !t.cpu.flags.zf && t.cpu.flags.sf &&
      t.cpu.flags.ovf) = true := by decide

theorem test_ar17 : (after (cpu [(.ax, 0x8000)]) [] [0x48] fun t =>
    t.reg16 .ax == 0x7FFF && !t.cpu.flags.cf && t.cpu.flags.pf && t.cpu.flags.af && !t.cpu.flags.zf && !t.cpu.flags.sf &&
      t.cpu.flags.ovf) = true := by decide

theorem test_ar18 : (after (cpu []) [(0x00200, [0xFF])] [0xFE, 0x06, 0x00, 0x02] fun t =>
    t.bus.byte 0x00200 == 0x00 && !t.cpu.flags.cf && t.cpu.flags.pf && t.cpu.flags.af && t.cpu.flags.zf &&
      !t.cpu.flags.sf && !t.cpu.flags.ovf) = true := by decide

theorem test_ar19 : (after (cpu []) [] [0xFF, 0x0E, 0x00, 0x02] fun t =>
    wordAt t 0x00200 == 0xFFFF && !t.cpu.flags.cf && t.cpu.flags.pf && t.cpu.flags.af && !t.cpu.flags.zf &&
      t.cpu.flags.sf && !t.cpu.flags.ovf) = true := by decide

theorem test_ar20 : (after (cpu [(.ax, 0x0080)]) [] [0xF6, 0xD8] fun t =>
    t.reg16 .ax == 0x0080 && t.cpu.flags.cf && !t.cpu.flags.pf && !t.cpu.flags.af && !t.cpu.flags.zf && t.cpu.flags.sf &&
      t.cpu.flags.ovf) = true := by decide

theorem test_ar22 : (after (cpu [(.ax, 0x0001)]) [] [0xF6, 0xD8] fun t =>
    t.reg16 .ax == 0x00FF && t.cpu.flags.cf && t.cpu.flags.pf && t.cpu.flags.af && !t.cpu.flags.zf && t.cpu.flags.sf &&
      !t.cpu.flags.ovf) = true := by decide

theorem test_ar23 : (after (cpu [(.ax, 0x0080), (.bx, 0x0002)]) [] [0xF6, 0xE3] fun t =>
    t.reg16 .ax == 0x0100 && t.cpu.flags.cf && t.cpu.flags.ovf) = true := by decide

theorem test_ar25 : (after (cpu [(.ax, 0xFFFF), (.bx, 0xFFFF)]) [] [0xF7, 0xE3] fun t =>
    t.reg16 .dx == 0xFFFE && t.reg16 .ax == 0x0001 && t.cpu.flags.cf && t.cpu.flags.ovf) = true := by decide

theorem test_ar27 : (after (cpu [(.ax, 0x0080), (.bx, 0x00FF)]) [] [0xF6, 0xEB] fun t =>
    t.reg16 .ax == 0x0080 && t.cpu.flags.cf && t.cpu.flags.ovf) = true := by decide

theorem test_ar28 : (after (cpu [(.ax, 0x0100), (.bx, 0x0100)]) [] [0xF7, 0xEB] fun t =>
    t.reg16 .dx == 0x0001 && t.reg16 .ax == 0x0000 && t.cpu.flags.cf && t.cpu.flags.ovf) = true := by decide

theorem test_ar29 : (after (cpu [(.ax, 0x0002), (.bx, 0x0003), (.cx, 0x0009)]) [] [0xF3, 0xF6, 0xEB] fun t =>
    t.reg16 .ax == 0xFFFA && !t.cpu.flags.cf && !t.cpu.flags.ovf && t.reg16 .cx == 0x0009) = true := by decide

theorem test_ar31 : (after (cpu [(.ax, 0x0007), (.bx, 0x0002)]) [] [0xF6, 0xF3] fun t =>
    t.reg16 .ax == 0x0103) = true := by decide

theorem test_ar32 : (after (cpu [(.ax, 0x0007), (.sp, 0x1000)]) [(0x00000, [0x00, 0x0A, 0x00, 0x00])] [0xF6, 0xF3] fun t =>
    t.reg16 .ax == 0x0007 && t.reg16 .sp == 0x0FFA) = true := by decide +kernel

theorem test_ar34 : (after (cpu [(.dx, 0x0001), (.bx, 0x0002)]) [] [0xF7, 0xF3] fun t =>
    t.reg16 .ax == 0x8000 && t.reg16 .dx == 0x0000) = true := by decide

theorem test_ar36 : (after (cpu [(.dx, 0xFFFF), (.ax, 0xFFF9), (.cx, 0x0002)]) [] [0xF7, 0xF9] fun t =>
    t.reg16 .ax == 0xFFFD && t.reg16 .dx == 0xFFFF) = true := by decide

theorem test_ar38 : (after (cpu [(.ax, 0xFF81), (.bx, 0x0001)]) [] [0xF6, 0xFB] fun t =>
    t.reg16 .ax == 0x0081) = true := by decide

theorem test_ar39 : (after (cpu [(.ax, 0xFF80), (.bx, 0x0001), (.sp, 0x1000)]) [(0x00000, [0x00, 0x0A, 0x00, 0x00])]
      [0xF6, 0xFB] fun t =>
    t.reg16 .ax == 0xFF80 && t.reg16 .sp == 0x0FFA) = true := by decide +kernel

theorem test_ar42 : (after (cpu [(.ax, 0x009A)]) [] [0x27] fun t =>
    t.reg16 .ax == 0x0000 && t.cpu.flags.cf && t.cpu.flags.pf && t.cpu.flags.af && t.cpu.flags.zf &&
      !t.cpu.flags.sf) = true := by decide

theorem test_ar43 : (after (cpu [(.ax, 0x000F)]) [] [0x27] fun t =>
    t.reg16 .ax == 0x0015 && !t.cpu.flags.cf && !t.cpu.flags.pf && t.cpu.flags.af && !t.cpu.flags.zf &&
      !t.cpu.flags.sf) = true := by decide

theorem test_ar45 : (after (cpu [(.ax, 0x001A)]) [] [0x2F] fun t =>
    t.reg16 .ax == 0x0014 && !t.cpu.flags.cf && t.cpu.flags.pf && t.cpu.flags.af) = true := by decide

theorem test_ar46 : (after (cpu [(.ax, 0x000B)]) [] [0x37] fun t =>
    t.reg16 .ax == 0x0101 && t.cpu.flags.cf && t.cpu.flags.af) = true := by decide

theorem test_ar47 : (after (cpu [(.ax, 0x00FA)]) [] [0x37] fun t =>
    t.reg16 .ax == 0x0100 && t.cpu.flags.cf && t.cpu.flags.af) = true := by decide

theorem test_ar48 : (after (cpu [(.ax, 0x0205)] [] 0xF012) [] [0x3F] fun t =>
    t.reg16 .ax == 0x010F && t.cpu.flags.cf && t.cpu.flags.af) = true := by decide

theorem test_ar49 : (after (cpu [(.ax, 0x0003)]) [] [0x3F] fun t =>
    t.reg16 .ax == 0x0003 && !t.cpu.flags.cf && !t.cpu.flags.af) = true := by decide

theorem test_ar51 : (after (cpu [(.ax, 0x002F), (.sp, 0x1000)]) [(0x00000, [0x00, 0x0A, 0x00, 0x00])] [0xD4, 0x00] fun t =>
    t.reg16 .ax == 0x002F && t.reg16 .sp == 0x0FFA) = true := by decide +kernel

theorem test_ar52 : (after (cpu [(.ax, 0x002F)]) [] [0xD4, 0x10] fun t =>
    t.reg16 .ax == 0x020F) = true := by decide

theorem test_ar53 : (after (cpu [(.ax, 0x0407)]) [] [0xD5, 0x0A] fun t =>
    t.reg16 .ax == 0x002F && !t.cpu.flags.pf && !t.cpu.flags.zf && !t.cpu.flags.sf) = true := by decide

theorem test_ar54 : (after (cpu [(.ax, 0x0102)]) [] [0xD5, 0x10] fun t =>
    t.reg16 .ax == 0x0012 && t.cpu.flags.pf) = true := by decide

theorem test_ar55 : (after (cpu [(.ax, 0x0080)]) [] [0x98] fun t =>
    t.reg16 .ax == 0xFF80) = true := by decide

theorem test_ar56 : (after (cpu [(.ax, 0x7FFF), (.dx, 0x1111)]) [] [0x99] fun t =>
    t.reg16 .dx == 0x0000) = true := by decide

theorem test_ar57 : (after (cpu [(.ax, 0x8000)]) [] [0x99] fun t =>
    t.reg16 .dx == 0xFFFF) = true := by decide

theorem test_ar58 : (after (cpu [] [] 0xF003) [] [0xD6] fun t =>
    t.reg16 .ax == 0x00FF) = true := by decide

theorem test_ar59 : (after (cpu [(.ax, 0x0010)]) [] [0x82, 0xC0, 0x05] fun t =>
    t.reg16 .ax == 0x0015) = true := by decide

theorem test_ls1 : (after (cpu [(.ax, 0x00F5)]) [] [0x24, 0x0F] fun t =>
    t.reg16 .ax == 0x0005 && !t.cpu.flags.cf && t.cpu.flags.pf && !t.cpu.flags.zf && !t.cpu.flags.sf &&
      !t.cpu.flags.ovf) = true := by decide

theorem test_ls2 : (after (cpu [(.ax, 0x0001)]) [] [0x0C, 0x80] fun t =>
    t.reg16 .ax == 0x0081 && !t.cpu.flags.cf && t.cpu.flags.pf && !t.cpu.flags.zf && t.cpu.flags.sf &&
      !t.cpu.flags.ovf) = true := by decide

theorem test_ls3 : (after (cpu [(.ax, 0x00FF)]) [] [0x34, 0xFF] fun t =>
    t.reg16 .ax == 0x0000 && !t.cpu.flags.cf && t.cpu.flags.pf && t.cpu.flags.zf && !t.cpu.flags.sf &&
      !t.cpu.flags.ovf) = true := by decide

theorem test_ls4 : (after (cpu [(.ax, 0x1234)]) [] [0x31, 0xC0] fun t =>
    t.reg16 .ax == 0x0000 && !t.cpu.flags.cf && t.cpu.flags.pf && t.cpu.flags.zf && !t.cpu.flags.sf &&
      !t.cpu.flags.ovf) = true := by decide

theorem test_ls5 : (after (cpu [(.ax, 0x007F)]) [] [0xA8, 0x80] fun t =>
    t.reg16 .ax == 0x007F && !t.cpu.flags.cf && t.cpu.flags.pf && t.cpu.flags.zf && !t.cpu.flags.sf &&
      !t.cpu.flags.ovf) = true := by decide

theorem test_ls6 : (after (cpu [(.bx, 0x000F)]) [] [0xF6, 0xC3, 0x0F] fun t =>
    t.reg16 .bx == 0x000F && !t.cpu.flags.cf && t.cpu.flags.pf && !t.cpu.flags.zf && !t.cpu.flags.sf &&
      !t.cpu.flags.ovf && t.cpu.ip == 0x0103) = true := by decide

theorem test_ls7 : (after (cpu [(.ax, 0x000F)] [] 0xFFD7) [] [0xF6, 0xD0] fun t =>
    t.reg16 .ax == 0x00F0 && t.cpu.flags.image == 0xFFD7) = true := by decide

theorem test_ls8 : (after (cpu [(.ax, 0x0081)]) [] [0xD0, 0xC0] fun t =>
    t.reg16 .ax == 0x0003 && t.cpu.flags.cf && !t.cpu.flags.pf && !t.cpu.flags.af && !t.cpu.flags.zf &&
      !t.cpu.flags.sf && t.cpu.flags.ovf) = true := by decide

theorem test_ls9 : (after (cpu [(.ax, 0x8000)]) [] [0xD1, 0xC0] fun t =>
    t.reg16 .ax == 0x0001 && t.cpu.flags.cf && !t.cpu.flags.pf && !t.cpu.flags.af && !t.cpu.flags.zf &&
      !t.cpu.flags.sf && t.cpu.flags.ovf) = true := by decide

theorem test_ls10 : (after (cpu [(.ax, 0x0081), (.cx, 0x0008)]) [] [0xD2, 0xC0] fun t =>
    t.reg16 .ax == 0x0081 && t.cpu.flags.cf && !t.cpu.flags.pf && !t.cpu.flags.af && !t.cpu.flags.zf &&
      !t.cpu.flags.sf) = true := by decide

theorem test_ls11 : (after (cpu [(.ax, 0x0001)]) [] [0xD0, 0xC8] fun t =>
    t.reg16 .ax == 0x0080 && t.cpu.flags.cf && !t.cpu.flags.pf && !t.cpu.flags.af && !t.cpu.flags.zf &&
      !t.cpu.flags.sf && t.cpu.flags.ovf) = true := by decide

theorem test_ls12 : (after (cpu [(.ax, 0x0080)]) [] [0xD0, 0xD0] fun t =>
    t.reg16 .ax == 0x0000 && t.cpu.flags.cf && !t.cpu.flags.pf && !t.cpu.flags.af && !t.cpu.flags.zf &&
      !t.cpu.flags.sf && t.cpu.flags.ovf) = true := by decide

theorem test_ls13 : (after (cpu [(.ax, 0x0055), (.cx, 0x0009)] [] 0xF003) [] [0xD2, 0xD0] fun t =>
    t.reg16 .ax == 0x0055 && t.cpu.flags.cf && !t.cpu.flags.pf && !t.cpu.flags.af && !t.cpu.flags.zf &&
      !t.cpu.flags.sf) = true := by decide

theorem test_ls14 : (after (cpu [] [] 0xF003) [] [0xD0, 0xD8] fun t =>
    t.reg16 .ax == 0x0080 && !t.cpu.flags.cf && !t.cpu.flags.pf && !t.cpu.flags.af && !t.cpu.flags.zf &&
      !t.cpu.flags.sf && t.cpu.flags.ovf) = true := by decide

theorem test_ls15 : (after (cpu [(.ax, 0x0001)] [] 0xF003) [] [0xD0, 0xD8] fun t =>
    t.reg16 .ax == 0x0080 && t.cpu.flags.cf && !t.cpu.flags.pf && !t.cpu.flags.af && !t.cpu.flags.zf &&
      !t.cpu.flags.sf && t.cpu.flags.ovf) = true := by decide

theorem test_ls16 : (after (cpu [(.ax, 0x4000)]) [] [0xD1, 0xE0] fun t =>
    t.reg16 .ax == 0x8000 && !t.cpu.flags.cf && t.cpu.flags.pf && !t.cpu.flags.zf && t.cpu.flags.sf &&
      t.cpu.flags.ovf) = true := by decide

theorem test_ls17 : (after (cpu [(.ax, 0x00FF), (.cx, 0x0009)]) [] [0xD2, 0xE0] fun t =>
    t.reg16 .ax == 0x0000 && !t.cpu.flags.cf && t.cpu.flags.pf && t.cpu.flags.zf && !t.cpu.flags.sf) = true := by decide

theorem test_ls18 : (after (cpu [(.ax, 0x0001), (.cx, 0x0010)]) [] [0xD3, 0xE0] fun t =>
    t.reg16 .ax == 0x0000 && t.cpu.flags.cf && t.cpu.flags.pf && t.cpu.flags.zf && !t.cpu.flags.sf) = true := by decide

theorem test_ls19 : (after (cpu [(.ax, 0x0001), (.cx, 0x0011)]) [] [0xD3, 0xE0] fun t =>
    t.reg16 .ax == 0x0000 && !t.cpu.flags.cf && t.cpu.flags.pf && t.cpu.flags.zf && !t.cpu.flags.sf) = true := by decide

theorem test_ls20 : (after (cpu [(.ax, 0x0081)]) [] [0xD0, 0xE8] fun t =>
    t.reg16 .ax == 0x0040 && t.cpu.flags.cf && !t.cpu.flags.pf && !t.cpu.flags.zf && !t.cpu.flags.sf &&
      t.cpu.flags.ovf) = true := by decide

theorem test_ls21 : (after (cpu [(.ax, 0x0001)]) [] [0xD1, 0xE8] fun t =>
    t.reg16 .ax == 0x0000 && t.cpu.flags.cf && t.cpu.flags.pf && t.cpu.flags.zf && !t.cpu.flags.sf &&
      !t.cpu.flags.ovf) = true := by decide

theorem test_ls22 : (after (cpu [(.ax, 0x0081)]) [] [0xD0, 0xF8] fun t =>
    t.reg16 .ax == 0x00C0 && t.cpu.flags.cf && t.cpu.flags.pf && !t.cpu.flags.zf && t.cpu.flags.sf &&
      !t.cpu.flags.ovf) = true := by decide

theorem test_ls23 : (after (cpu [(.ax, 0x0080), (.cx, 0x0009)]) [] [0xD2, 0xF8] fun t =>
    t.reg16 .ax == 0x00FF && t.cpu.flags.cf && t.cpu.flags.pf && !t.cpu.flags.zf && t.cpu.flags.sf) = true := by decide

theorem test_ls25 : (after (cpu []) [(0x00200, [0x12])] [0xD2, 0x26, 0x00, 0x02] fun t =>
    t.bus.byte 0x00200 == 0x12 && t.cpu.flags.image == 0xF002) = true := by decide

theorem test_ls26 : (after (cpu []) [] [0xD0, 0xF0] fun t =>
    t.reg16 .ax == 0x00FF && !t.cpu.flags.cf && t.cpu.flags.pf && !t.cpu.flags.af && !t.cpu.flags.zf && t.cpu.flags.sf &&
      !t.cpu.flags.ovf) = true := by decide

theorem test_ls27 : (after (cpu []) [] [0xD2, 0xF0] fun t =>
    t.reg16 .ax == 0x0000 && t.cpu.flags.image == 0xF002) = true := by decide

theorem test_st2 : (after (cpu [(.si, 0x0010), (.di, 0x0020)] [(.ds, 0x1000), (.es, 0x2000)]
      0xF402) [(0x10010, [0xAA])] [0xA4] fun t =>
    t.bus.byte 0x20020 == 0xAA && t.reg16 .si == 0x000F && t.reg16 .di == 0x001F) = true := by decide

theorem test_st3 : (after (cpu [(.si, 0x0010), (.di, 0x0020)] [(.ds, 0x1000), (.es, 0x2000)]) [(0x10010, [0x11, 0x22])]
      [0xA5] fun t =>
    wordAt t 0x20020 == 0x2211 && t.reg16 .si == 0x0012 && t.reg16 .di == 0x0022) = true := by decide

theorem test_st4 : (after (cpu [(.si, 0x0010), (.di, 0x0020)] [(.ds, 0x1000), (.es, 0x3000)]) [(0x30010, [0x5C])]
      [0x26, 0xA4] fun t =>
    t.bus.byte 0x30020 == 0x5C) = true := by decide

theorem test_st5 : (after (cpu [(.si, 0x0010), (.di, 0x0020)]
      [(.ds, 0x1000), (.es, 0x2000)]) [(0x10010, [0x01]), (0x20020, [0x02])] [0xA6] fun t =>
    t.cpu.flags.cf && t.cpu.flags.pf && t.cpu.flags.af && !t.cpu.flags.zf && t.cpu.flags.sf && !t.cpu.flags.ovf &&
      t.reg16 .si == 0x0011 && t.reg16 .di == 0x0021) = true := by decide

theorem test_st6 : (after (cpu [(.si, 0x0010), (.di, 0x0020), (.ax, 0x0041)]
      [(.ds, 0x1000), (.es, 0x2000)]) [(0x20020, [0x41])] [0xAE] fun t =>
    t.cpu.flags.zf && t.reg16 .di == 0x0021 && t.reg16 .si == 0x0010) = true := by decide

theorem test_st7 : (after (cpu [(.si, 0x0010)] [(.ds, 0x1000)]) [(0x10010, [0x34, 0x12])] [0xAD] fun t =>
    t.reg16 .ax == 0x1234 && t.reg16 .si == 0x0012) = true := by decide

theorem test_st8 : (after (cpu [(.di, 0x0020), (.ax, 0xBEEF)] [(.es, 0x2000)]) [] [0xAB] fun t =>
    wordAt t 0x20020 == 0xBEEF && t.reg16 .di == 0x0022) = true := by decide

theorem test_st9 : (after (cpu [(.si, 0xFFFF)] [(.ds, 0x1000)]) [(0x1FFFF, [0x7E])] [0xAC] fun t =>
    t.reg8 .al == 0x7E && t.reg16 .si == 0x0000) = true := by decide

theorem test_st10 : (after (cpu [(.si, 0x0010), (.di, 0x0020)]) [(0x00010, [0x11])] [0xF3, 0xA4] fun t =>
    t.reg16 .cx == 0x0000 && t.reg16 .si == 0x0010 && t.reg16 .di == 0x0020 && t.bus.byte 0x00020 == 0x00 &&
      t.cpu.ip == 0x0102 && t.cpu.repRun.isNone) = true := by decide

theorem test_st19 : (after (cpu [(.cx, 0x0005)] [] 0xF003) [] [0xF3, 0xF8] fun t =>
    t.cpu.flags.image == 0xF002 && t.reg16 .cx == 0x0005) = true := by decide

theorem test_st11a : (after (cpu [(.cx, 0x0003), (.di, 0x0100)] [(.es, 0x1000)]) [(0x10100, [0x11, 0x22, 0x33])]
      [0xF3, 0xAA] fun t =>
    t.reg16 .cx == 0x0002 && t.reg16 .di == 0x0101 && t.bus.byte 0x10100 == 0x00 && t.bus.byte 0x10101 == 0x22 &&
      t.cpu.repRun.isSome) = true := by decide

theorem test_ct1 : (after (cpu []) [] [0xEB, 0xFE] fun t =>
    t.cpu.ip == 0x0100 && t.biu.queue.isEmpty) = true := by decide

theorem test_ct2 : (after (cpu [] [] 0xF002 0xFFF0) [] [0xEB, 0x10] fun t =>
    t.cpu.ip == 0x0002) = true := by decide

theorem test_ct3 : (after (cpu []) [] [0xE9, 0x00, 0x80] fun t =>
    t.cpu.ip == 0x8103) = true := by decide

theorem test_ct4 : (after (cpu []) [] [0xEA, 0x00, 0x00, 0x00, 0xF0] fun t =>
    t.seg .cs == 0xF000 && t.cpu.ip == 0x0000) = true := by decide

theorem test_ct5 : (after (cpu [] [] 0xF042) [] [0x74, 0x02] fun t =>
    t.cpu.ip == 0x0104) = true := by decide

theorem test_ct6 : (after (cpu []) [] [0x74, 0x02] fun t =>
    t.cpu.ip == 0x0102) = true := by decide

theorem test_ct7 : (after (cpu [] [] 0xF082) [] [0x7C, 0x10] fun t =>
    t.cpu.ip == 0x0112) = true := by decide

theorem test_ct8 : (after (cpu [] [] 0xF882) [] [0x7D, 0x10] fun t =>
    t.cpu.ip == 0x0112) = true := by decide

theorem test_ct9 : (after (cpu []) [] [0x7F, 0x10] fun t =>
    t.cpu.ip == 0x0112) = true := by decide

theorem test_ct10 : (after (cpu [] [] 0xF042) [] [0x77, 0x10] fun t =>
    t.cpu.ip == 0x0102) = true := by decide

theorem test_ct11 : (after (cpu [] [] 0xF006) [] [0x7A, 0x10] fun t =>
    t.cpu.ip == 0x0112) = true := by decide

theorem test_ct12 : (after (cpu []) [] [0x75, 0xFE] fun t =>
    t.cpu.ip == 0x0100) = true := by decide

theorem test_ct13 : (after (cpu [] [] 0xF042) [] [0x64, 0x02] fun t =>
    t.cpu.ip == 0x0104) = true := by decide

theorem test_ct14 : (after (cpu [(.bx, 0x0400)]) [] [0xFF, 0xE3] fun t =>
    t.cpu.ip == 0x0400) = true := by decide

theorem test_ct15 : (after (cpu []) [(0x00500, [0x00, 0x02, 0x00, 0x30])] [0xFF, 0x2E, 0x00, 0x05] fun t =>
    t.seg .cs == 0x3000 && t.cpu.ip == 0x0200) = true := by decide

theorem test_ct16 : refuses [0xFF, 0xE8] = true := by decide

theorem test_ct17 : (after (cpu [(.sp, 0x1000)]) [] [0xE8, 0xFD, 0x0E] fun t =>
    wordAt t 0x00FFE == 0x0103 && t.reg16 .sp == 0x0FFE && t.cpu.ip == 0x1000) = true := by decide

theorem test_ct18 : (after (cpu [(.sp, 0x1000)] [(.cs, 0x1000)]) [] [0x9A, 0x00, 0x02, 0x00, 0x30] fun t =>
    wordAt t 0x00FFE == 0x1000 && wordAt t 0x00FFC == 0x0105 && t.reg16 .sp == 0x0FFC && t.seg .cs == 0x3000 &&
      t.cpu.ip == 0x0200) = true := by decide +kernel

theorem test_ct19 : (after (cpu [(.bx, 0x0400), (.sp, 0x1000)]) [] [0xFF, 0xD3] fun t =>
    wordAt t 0x00FFE == 0x0102 && t.cpu.ip == 0x0400) = true := by decide

theorem test_ct20 : (after (cpu [(.sp, 0x1000)]) [(0x00500, [0x00, 0x02, 0x00, 0x30])] [0xFF, 0x1E, 0x00, 0x05] fun t =>
    wordAt t 0x00FFC == 0x0104 && t.seg .cs == 0x3000 && t.cpu.ip == 0x0200) = true := by decide +kernel

theorem test_ct21 : (after (cpu [(.sp, 0x0FFE)]) [(0x00FFE, [0x34, 0x02])] [0xC3] fun t =>
    t.cpu.ip == 0x0234 && t.reg16 .sp == 0x1000) = true := by decide

theorem test_ct22 : (after (cpu [(.sp, 0x0FFA)]) [(0x00FFA, [0x34, 0x02])] [0xC2, 0x04, 0x00] fun t =>
    t.cpu.ip == 0x0234 && t.reg16 .sp == 0x1000) = true := by decide

theorem test_ct23 : (after (cpu [(.sp, 0x0FFC)]) [(0x00FFC, [0x00, 0x02, 0x00, 0x30])] [0xCB] fun t =>
    t.seg .cs == 0x3000 && t.cpu.ip == 0x0200 && t.reg16 .sp == 0x1000) = true := by decide

theorem test_ct24 : (after (cpu [(.sp, 0x0FF8)]) [(0x00FF8, [0x00, 0x02, 0x00, 0x30])] [0xCA, 0x04, 0x00] fun t =>
    t.seg .cs == 0x3000 && t.cpu.ip == 0x0200 && t.reg16 .sp == 0x1000) = true := by decide

theorem test_ct25 : (after (cpu [(.sp, 0x0FFE)]) [(0x00FFE, [0x34, 0x02])] [0xC1] fun t =>
    t.cpu.ip == 0x0234 && t.reg16 .sp == 0x1000) = true := by decide

theorem test_ct26 : (after (cpu [(.cx, 0x0001)]) [] [0xE2, 0xFE] fun t =>
    t.reg16 .cx == 0x0000 && t.cpu.ip == 0x0102) = true := by decide

theorem test_ct27 : (after (cpu []) [] [0xE2, 0xFE] fun t =>
    t.reg16 .cx == 0xFFFF && t.cpu.ip == 0x0100) = true := by decide

theorem test_ct28 : (after (cpu [(.cx, 0x0002)]) [] [0xE1, 0x10] fun t =>
    t.reg16 .cx == 0x0001 && t.cpu.ip == 0x0102) = true := by decide

theorem test_ct29 : (after (cpu [(.cx, 0x0002)] [] 0xF042) [] [0xE1, 0x10] fun t =>
    t.reg16 .cx == 0x0001 && t.cpu.ip == 0x0112) = true := by decide

theorem test_ct30 : (after (cpu [(.cx, 0x0002)]) [] [0xE0, 0x10] fun t =>
    t.reg16 .cx == 0x0001 && t.cpu.ip == 0x0112) = true := by decide

theorem test_ct31 : (after (cpu [(.cx, 0x0001)]) [] [0xE0, 0x10] fun t =>
    t.reg16 .cx == 0x0000 && t.cpu.ip == 0x0102) = true := by decide

theorem test_ct32 : (after (cpu []) [] [0xE3, 0x05] fun t =>
    t.cpu.ip == 0x0107 && t.reg16 .cx == 0x0000) = true := by decide

theorem test_ct33 : (after (cpu [(.cx, 0x0001)]) [] [0xE3, 0x05] fun t =>
    t.cpu.ip == 0x0102 && t.reg16 .cx == 0x0001) = true := by decide

theorem test_ct34 : (after (cpu [(.sp, 0x1000)] [] 0xF202) [(0x00084, [0x00, 0x05, 0x00, 0x01])] [0xCD, 0x21] fun t =>
    wordAt t 0x00FFE == 0xF202 && wordAt t 0x00FFA == 0x0102 && t.reg16 .sp == 0x0FFA && t.cpu.flags.image == 0xF002 &&
      t.seg .cs == 0x0100 && t.cpu.ip == 0x0500) = true := by decide +kernel

theorem test_ct35 : (after (cpu [(.sp, 0x1000)]) [(0x0000C, [0x00, 0x06, 0x00, 0x00])] [0xCC] fun t =>
    wordAt t 0x00FFA == 0x0101 && t.cpu.ip == 0x0600) = true := by decide +kernel

theorem test_ct36 : (after (cpu [(.sp, 0x1000)] [] 0xF802) [(0x00010, [0x00, 0x07, 0x00, 0x00])] [0xCE] fun t =>
    wordAt t 0x00FFA == 0x0101 && t.cpu.ip == 0x0700) = true := by decide +kernel

theorem test_ct37 : (after (cpu [(.sp, 0x1000)]) [] [0xCE] fun t =>
    t.cpu.ip == 0x0101 && t.reg16 .sp == 0x1000) = true := by decide

theorem test_ct38 : (after (cpu [(.sp, 0x0FFA)]) [(0x00FFA, [0x02, 0x01, 0x00, 0x10, 0x02, 0xF2])] [0xCF] fun t =>
    t.seg .cs == 0x1000 && t.cpu.ip == 0x0102 && t.cpu.flags.image == 0xF202 && t.reg16 .sp == 0x1000) = true := by decide

theorem test_ct39 : (after (cpu [(.sp, 0x0004)] [] 0xF002 0x0200) [(0x00100, [0x00, 0x04, 0x00, 0x00])] [0xCD, 0x40] fun t =>
    t.reg16 .sp == 0xFFFE && wordAt t 0x00002 == 0xF002 && wordAt t 0x0FFFE == 0x0202 &&
      t.cpu.ip == 0x0400) = true := by decide +kernel

theorem test_pc1 : (after (cpu [] [] 0xF003) [] [0xF8] fun t =>
    t.cpu.flags.image == 0xF002) = true := by decide

theorem test_pc2 : (after (cpu []) [] [0xF9] fun t =>
    t.cpu.flags.image == 0xF003) = true := by decide

theorem test_pc3 : (after (cpu [] [] 0xF003) [] [0xF5] fun t =>
    t.cpu.flags.image == 0xF002) = true := by decide

theorem test_pc4 : (after (cpu [] [] 0xF402) [] [0xFC] fun t =>
    t.cpu.flags.image == 0xF002) = true := by decide

theorem test_pc5 : (after (cpu []) [] [0xFD] fun t =>
    t.cpu.flags.image == 0xF402) = true := by decide

theorem test_pc6 : (after (cpu [] [] 0xF202) [] [0xFA] fun t =>
    t.cpu.flags.image == 0xF002) = true := by decide

theorem test_pc7 : (after (cpu []) [] [0xFB] fun t =>
    t.cpu.flags.image == 0xF202 && t.cpu.inhibit) = true := by decide

theorem test_pc8 : (after (cpu [] [] 0xF202) [] [0xF4] fun t =>
    t.cpu.ip == 0x0101 && t.cpu.halted) = true := by decide

theorem test_pc9 : (after (cpu []) [] [0x90] fun t =>
    t.cpu.ip == 0x0101) = true := by decide

theorem test_pc11 : (after (cpu []) [] [0xF1, 0x90] fun t =>
    t.cpu.ip == 0x0102) = true := by decide

theorem test_pc12 : (after (cpu [] [(.ds, 0x1000), (.es, 0x2000)]) [(0x00000, [0x6B])] [0x26, 0x2E, 0x8A, 0x07] fun t =>
    t.reg8 .al == 0x6B) = true := by decide

theorem test_pc13 : (after (cpu []) [] [0x9B] fun t =>
    t.cpu.ip == 0x0101) = true := by decide

theorem test_pc15 : (after (cpu []) [(0x00200, [0x34, 0x12])] [0xD9, 0x06, 0x00, 0x02] fun t =>
    t.cpu.ip == 0x0104 && t.reg16 .ax == 0x0000) = true := by decide

theorem test_pc16 : (after (cpu []) [] [0xDB, 0xE0] fun t =>
    t.cpu.ip == 0x0102) = true := by decide

theorem test_en7 : refuses [0x0F] = true := by decide

theorem test_en8 : refuses [0x8F, 0xC8] = true := by decide

theorem test_en9 : refuses [0xFE, 0xD0] = true := by decide

theorem test_en10 : refuses [0xFF, 0xF8] = true := by decide

theorem test_en11 : refuses [0xC6, 0xC8, 0x00] = true := by decide

theorem test_en12 : refuses [0xC5, 0xC0] = true := by decide

theorem test_en1 : (after (cpu [(.bp, 0x0010)] [(.ss, 0x1000)]) [(0x11244, [0x01, 0x00])]
      [0x81, 0x86, 0x34, 0x12, 0x78, 0x56] fun t =>
    wordAt t 0x11244 == 0x5679 && t.cpu.ip == 0x0106) = true := by decide +kernel

theorem test_en2 : (after (cpu [(.bx, 0x0001)]) [] [0x83, 0xC3, 0xFF] fun t =>
    t.reg16 .bx == 0x0000 && t.cpu.ip == 0x0103) = true := by decide

theorem test_en3 : (after (cpu [(.bx, 0x1234)]) [] [0xF7, 0xC3, 0x34, 0x12] fun t =>
    t.cpu.ip == 0x0104 && !t.cpu.flags.cf && !t.cpu.flags.pf && !t.cpu.flags.zf && !t.cpu.flags.sf &&
      !t.cpu.flags.ovf) = true := by decide

theorem test_en4 : (after (cpu []) [] [0x2E, 0x2E, 0x2E, 0x90] fun t =>
    t.cpu.ip == 0x0104) = true := by decide

theorem test_mb1 : (after (cpu [(.ax, 0x1234)]) [] [0xA3, 0x10, 0x00] fun t =>
    wordAt t 0x00010 == 0x1234) = true := by decide

theorem test_mb2 : (after (cpu [(.si, 0xFFFF)] [(.ds, 0x1000)]) [(0x1FFFF, [0x34]), (0x10000, [0x12])] [0x8B, 0x04] fun t =>
    t.reg16 .ax == 0x1234) = true := by decide

theorem test_mb3 : (after (cpu [] [(.ds, 0xFFFF)]) [(0x00000, [0x77])] [0xA0, 0x10, 0x00] fun t =>
    t.reg8 .al == 0x77) = true := by decide

theorem test_mb5 : (after (cpu [(.ax, 0x0055)] [(.ds, 0xA000)]) [] [0xA2, 0x00, 0x00] fun t =>
    t.bus.byte 0xA0000 == 0x00) = true := by decide

theorem test_mb11 : (after (cpu []) [] [0xE4, 0x43] fun t =>
    t.cpu.ip == 0x0102) = true := by decide

/-! The remaining instructions. -/

theorem test_addEbGb : (after (cpu [(.bx, 0x0200), (.ax, 0x0075)] [] 0xF003) [(0x00200, [0x9C])] [0x00, 0x07] fun t =>
    t.bus.byte 0x00200 == 0x11 && t.cpu.flags.cf && t.cpu.flags.pf && t.cpu.flags.af && !t.cpu.flags.zf &&
      !t.cpu.flags.sf && !t.cpu.flags.ovf) = true := by decide

theorem test_addEvGv : (after (cpu [(.bx, 0x0200), (.dx, 0x7AB3)] [] 0xF003) [(0x00200, [0x42, 0x9C])] [0x01, 0x17] fun t =>
    wordAt t 0x00200 == 0x16F5 && t.cpu.flags.cf && t.cpu.flags.pf && !t.cpu.flags.af && !t.cpu.flags.zf &&
      !t.cpu.flags.sf && !t.cpu.flags.ovf) = true := by decide

theorem test_addGbEb : (after (cpu [(.bx, 0x0200), (.cx, 0x009C)] [] 0xF003) [(0x00200, [0x75])] [0x02, 0x0F] fun t =>
    t.reg16 .cx == 0x0011 && t.cpu.flags.cf && t.cpu.flags.pf && t.cpu.flags.af && !t.cpu.flags.zf && !t.cpu.flags.sf &&
      !t.cpu.flags.ovf) = true := by decide

theorem test_addGvEv : (after (cpu [(.bx, 0x0200), (.si, 0x9C42)] [] 0xF003) [(0x00200, [0xB3, 0x7A])] [0x03, 0x37] fun t =>
    t.reg16 .si == 0x16F5 && t.cpu.flags.cf && t.cpu.flags.pf && !t.cpu.flags.af && !t.cpu.flags.zf && !t.cpu.flags.sf &&
      !t.cpu.flags.ovf) = true := by decide

theorem test_addEbIb : (after (cpu [(.cx, 0x9C11)] [] 0xF003) [] [0x80, 0xC5, 0x75] fun t =>
    t.reg16 .cx == 0x1111 && t.cpu.flags.cf && t.cpu.flags.pf && t.cpu.flags.af && !t.cpu.flags.zf && !t.cpu.flags.sf &&
      !t.cpu.flags.ovf) = true := by decide

theorem test_orEbGb : (after (cpu [(.bx, 0x0200), (.ax, 0x0075)] [] 0xF003) [(0x00200, [0x9C])] [0x08, 0x07] fun t =>
    t.bus.byte 0x00200 == 0xFD && !t.cpu.flags.cf && !t.cpu.flags.pf && !t.cpu.flags.zf && t.cpu.flags.sf &&
      !t.cpu.flags.ovf) = true := by decide

theorem test_orEvGv : (after (cpu [(.bx, 0x0200), (.dx, 0x7AB3)] [] 0xF003) [(0x00200, [0x42, 0x9C])] [0x09, 0x17] fun t =>
    wordAt t 0x00200 == 0xFEF3 && !t.cpu.flags.cf && t.cpu.flags.pf && !t.cpu.flags.zf && t.cpu.flags.sf &&
      !t.cpu.flags.ovf) = true := by decide

theorem test_orGbEb : (after (cpu [(.bx, 0x0200), (.cx, 0x009C)] [] 0xF003) [(0x00200, [0x75])] [0x0A, 0x0F] fun t =>
    t.reg16 .cx == 0x00FD && !t.cpu.flags.cf && !t.cpu.flags.pf && !t.cpu.flags.zf && t.cpu.flags.sf &&
      !t.cpu.flags.ovf) = true := by decide

theorem test_orGvEv : (after (cpu [(.bx, 0x0200), (.si, 0x9C42)] [] 0xF003) [(0x00200, [0xB3, 0x7A])] [0x0B, 0x37] fun t =>
    t.reg16 .si == 0xFEF3 && !t.cpu.flags.cf && t.cpu.flags.pf && !t.cpu.flags.zf && t.cpu.flags.sf &&
      !t.cpu.flags.ovf) = true := by decide

theorem test_orAxIw : (after (cpu [(.ax, 0x9C42)] [] 0xF003) [] [0x0D, 0xB3, 0x7A] fun t =>
    t.reg16 .ax == 0xFEF3 && !t.cpu.flags.cf && t.cpu.flags.pf && !t.cpu.flags.zf && t.cpu.flags.sf &&
      !t.cpu.flags.ovf) = true := by decide

theorem test_orEbIb : (after (cpu [(.cx, 0x9C11)] [] 0xF003) [] [0x80, 0xCD, 0x75] fun t =>
    t.reg16 .cx == 0xFD11 && !t.cpu.flags.cf && !t.cpu.flags.pf && !t.cpu.flags.zf && t.cpu.flags.sf &&
      !t.cpu.flags.ovf) = true := by decide

theorem test_orEbIbAlias : (after (cpu [(.cx, 0x9C11)] [] 0xF003) [] [0x82, 0xCD, 0x75] fun t =>
    t.reg16 .cx == 0xFD11 && !t.cpu.flags.cf && !t.cpu.flags.pf && !t.cpu.flags.zf && t.cpu.flags.sf &&
      !t.cpu.flags.ovf) = true := by decide

theorem test_orEvIw : (after (cpu [(.di, 0x9C42)] [] 0xF003) [] [0x81, 0xCF, 0xB3, 0x7A] fun t =>
    t.reg16 .di == 0xFEF3 && !t.cpu.flags.cf && t.cpu.flags.pf && !t.cpu.flags.zf && t.cpu.flags.sf &&
      !t.cpu.flags.ovf) = true := by decide

theorem test_orEvIbSx : (after (cpu [(.di, 0x9C42)] [] 0xF003) [] [0x83, 0xCF, 0x90] fun t =>
    t.reg16 .di == 0xFFD2 && !t.cpu.flags.cf && t.cpu.flags.pf && !t.cpu.flags.zf && t.cpu.flags.sf &&
      !t.cpu.flags.ovf) = true := by decide

theorem test_adcEbGb : (after (cpu [(.bx, 0x0200), (.ax, 0x0075)] [] 0xF003) [(0x00200, [0x9C])] [0x10, 0x07] fun t =>
    t.bus.byte 0x00200 == 0x12 && t.cpu.flags.cf && t.cpu.flags.pf && t.cpu.flags.af && !t.cpu.flags.zf &&
      !t.cpu.flags.sf && !t.cpu.flags.ovf) = true := by decide

theorem test_adcEvGv : (after (cpu [(.bx, 0x0200), (.dx, 0x7AB3)] [] 0xF003) [(0x00200, [0x42, 0x9C])] [0x11, 0x17] fun t =>
    wordAt t 0x00200 == 0x16F6 && t.cpu.flags.cf && t.cpu.flags.pf && !t.cpu.flags.af && !t.cpu.flags.zf &&
      !t.cpu.flags.sf && !t.cpu.flags.ovf) = true := by decide

theorem test_adcGbEb : (after (cpu [(.bx, 0x0200), (.cx, 0x009C)] [] 0xF003) [(0x00200, [0x75])] [0x12, 0x0F] fun t =>
    t.reg16 .cx == 0x0012 && t.cpu.flags.cf && t.cpu.flags.pf && t.cpu.flags.af && !t.cpu.flags.zf && !t.cpu.flags.sf &&
      !t.cpu.flags.ovf) = true := by decide

theorem test_adcGvEv : (after (cpu [(.bx, 0x0200), (.si, 0x9C42)] [] 0xF003) [(0x00200, [0xB3, 0x7A])] [0x13, 0x37] fun t =>
    t.reg16 .si == 0x16F6 && t.cpu.flags.cf && t.cpu.flags.pf && !t.cpu.flags.af && !t.cpu.flags.zf && !t.cpu.flags.sf &&
      !t.cpu.flags.ovf) = true := by decide

theorem test_adcEbIb : (after (cpu [(.cx, 0x9C11)] [] 0xF003) [] [0x80, 0xD5, 0x75] fun t =>
    t.reg16 .cx == 0x1211 && t.cpu.flags.cf && t.cpu.flags.pf && t.cpu.flags.af && !t.cpu.flags.zf && !t.cpu.flags.sf &&
      !t.cpu.flags.ovf) = true := by decide

theorem test_adcEbIbAlias : (after (cpu [(.cx, 0x9C11)] [] 0xF003) [] [0x82, 0xD5, 0x75] fun t =>
    t.reg16 .cx == 0x1211 && t.cpu.flags.cf && t.cpu.flags.pf && t.cpu.flags.af && !t.cpu.flags.zf && !t.cpu.flags.sf &&
      !t.cpu.flags.ovf) = true := by decide

theorem test_adcEvIw : (after (cpu [(.di, 0x9C42)] [] 0xF003) [] [0x81, 0xD7, 0xB3, 0x7A] fun t =>
    t.reg16 .di == 0x16F6 && t.cpu.flags.cf && t.cpu.flags.pf && !t.cpu.flags.af && !t.cpu.flags.zf && !t.cpu.flags.sf &&
      !t.cpu.flags.ovf) = true := by decide

theorem test_adcEvIbSx : (after (cpu [(.di, 0x9C42)] [] 0xF003) [] [0x83, 0xD7, 0x90] fun t =>
    t.reg16 .di == 0x9BD3 && t.cpu.flags.cf && !t.cpu.flags.pf && !t.cpu.flags.af && !t.cpu.flags.zf && t.cpu.flags.sf &&
      !t.cpu.flags.ovf) = true := by decide

theorem test_sbbEbGb : (after (cpu [(.bx, 0x0200), (.ax, 0x0075)] [] 0xF003) [(0x00200, [0x9C])] [0x18, 0x07] fun t =>
    t.bus.byte 0x00200 == 0x26 && !t.cpu.flags.cf && !t.cpu.flags.pf && !t.cpu.flags.af && !t.cpu.flags.zf &&
      !t.cpu.flags.sf && t.cpu.flags.ovf) = true := by decide

theorem test_sbbEvGv : (after (cpu [(.bx, 0x0200), (.dx, 0x7AB3)] [] 0xF003) [(0x00200, [0x42, 0x9C])] [0x19, 0x17] fun t =>
    wordAt t 0x00200 == 0x218E && !t.cpu.flags.cf && t.cpu.flags.pf && t.cpu.flags.af && !t.cpu.flags.zf &&
      !t.cpu.flags.sf && t.cpu.flags.ovf) = true := by decide

theorem test_sbbGbEb : (after (cpu [(.bx, 0x0200), (.cx, 0x009C)] [] 0xF003) [(0x00200, [0x75])] [0x1A, 0x0F] fun t =>
    t.reg16 .cx == 0x0026 && !t.cpu.flags.cf && !t.cpu.flags.pf && !t.cpu.flags.af && !t.cpu.flags.zf &&
      !t.cpu.flags.sf && t.cpu.flags.ovf) = true := by decide

theorem test_sbbGvEv : (after (cpu [(.bx, 0x0200), (.si, 0x9C42)] [] 0xF003) [(0x00200, [0xB3, 0x7A])] [0x1B, 0x37] fun t =>
    t.reg16 .si == 0x218E && !t.cpu.flags.cf && t.cpu.flags.pf && t.cpu.flags.af && !t.cpu.flags.zf && !t.cpu.flags.sf &&
      t.cpu.flags.ovf) = true := by decide

theorem test_sbbEbIb : (after (cpu [(.cx, 0x9C11)] [] 0xF003) [] [0x80, 0xDD, 0x75] fun t =>
    t.reg16 .cx == 0x2611 && !t.cpu.flags.cf && !t.cpu.flags.pf && !t.cpu.flags.af && !t.cpu.flags.zf &&
      !t.cpu.flags.sf && t.cpu.flags.ovf) = true := by decide

theorem test_sbbEbIbAlias : (after (cpu [(.cx, 0x9C11)] [] 0xF003) [] [0x82, 0xDD, 0x75] fun t =>
    t.reg16 .cx == 0x2611 && !t.cpu.flags.cf && !t.cpu.flags.pf && !t.cpu.flags.af && !t.cpu.flags.zf &&
      !t.cpu.flags.sf && t.cpu.flags.ovf) = true := by decide

theorem test_sbbEvIw : (after (cpu [(.di, 0x9C42)] [] 0xF003) [] [0x81, 0xDF, 0xB3, 0x7A] fun t =>
    t.reg16 .di == 0x218E && !t.cpu.flags.cf && t.cpu.flags.pf && t.cpu.flags.af && !t.cpu.flags.zf && !t.cpu.flags.sf &&
      t.cpu.flags.ovf) = true := by decide

theorem test_sbbEvIbSx : (after (cpu [(.di, 0x9C42)] [] 0xF003) [] [0x83, 0xDF, 0x90] fun t =>
    t.reg16 .di == 0x9CB1 && t.cpu.flags.cf && t.cpu.flags.pf && !t.cpu.flags.af && !t.cpu.flags.zf && t.cpu.flags.sf &&
      !t.cpu.flags.ovf) = true := by decide

theorem test_andEbGb : (after (cpu [(.bx, 0x0200), (.ax, 0x0075)] [] 0xF003) [(0x00200, [0x9C])] [0x20, 0x07] fun t =>
    t.bus.byte 0x00200 == 0x14 && !t.cpu.flags.cf && t.cpu.flags.pf && !t.cpu.flags.zf && !t.cpu.flags.sf &&
      !t.cpu.flags.ovf) = true := by decide

theorem test_andEvGv : (after (cpu [(.bx, 0x0200), (.dx, 0x7AB3)] [] 0xF003) [(0x00200, [0x42, 0x9C])] [0x21, 0x17] fun t =>
    wordAt t 0x00200 == 0x1802 && !t.cpu.flags.cf && !t.cpu.flags.pf && !t.cpu.flags.zf && !t.cpu.flags.sf &&
      !t.cpu.flags.ovf) = true := by decide

theorem test_andGbEb : (after (cpu [(.bx, 0x0200), (.cx, 0x009C)] [] 0xF003) [(0x00200, [0x75])] [0x22, 0x0F] fun t =>
    t.reg16 .cx == 0x0014 && !t.cpu.flags.cf && t.cpu.flags.pf && !t.cpu.flags.zf && !t.cpu.flags.sf &&
      !t.cpu.flags.ovf) = true := by decide

theorem test_andGvEv : (after (cpu [(.bx, 0x0200), (.si, 0x9C42)] [] 0xF003) [(0x00200, [0xB3, 0x7A])] [0x23, 0x37] fun t =>
    t.reg16 .si == 0x1802 && !t.cpu.flags.cf && !t.cpu.flags.pf && !t.cpu.flags.zf && !t.cpu.flags.sf &&
      !t.cpu.flags.ovf) = true := by decide

theorem test_andAxIw : (after (cpu [(.ax, 0x9C42)] [] 0xF003) [] [0x25, 0xB3, 0x7A] fun t =>
    t.reg16 .ax == 0x1802 && !t.cpu.flags.cf && !t.cpu.flags.pf && !t.cpu.flags.zf && !t.cpu.flags.sf &&
      !t.cpu.flags.ovf) = true := by decide

theorem test_andEbIb : (after (cpu [(.cx, 0x9C11)] [] 0xF003) [] [0x80, 0xE5, 0x75] fun t =>
    t.reg16 .cx == 0x1411 && !t.cpu.flags.cf && t.cpu.flags.pf && !t.cpu.flags.zf && !t.cpu.flags.sf &&
      !t.cpu.flags.ovf) = true := by decide

theorem test_andEbIbAlias : (after (cpu [(.cx, 0x9C11)] [] 0xF003) [] [0x82, 0xE5, 0x75] fun t =>
    t.reg16 .cx == 0x1411 && !t.cpu.flags.cf && t.cpu.flags.pf && !t.cpu.flags.zf && !t.cpu.flags.sf &&
      !t.cpu.flags.ovf) = true := by decide

theorem test_andEvIw : (after (cpu [(.di, 0x9C42)] [] 0xF003) [] [0x81, 0xE7, 0xB3, 0x7A] fun t =>
    t.reg16 .di == 0x1802 && !t.cpu.flags.cf && !t.cpu.flags.pf && !t.cpu.flags.zf && !t.cpu.flags.sf &&
      !t.cpu.flags.ovf) = true := by decide

theorem test_andEvIbSx : (after (cpu [(.di, 0x9C42)] [] 0xF003) [] [0x83, 0xE7, 0x90] fun t =>
    t.reg16 .di == 0x9C00 && !t.cpu.flags.cf && t.cpu.flags.pf && !t.cpu.flags.zf && t.cpu.flags.sf &&
      !t.cpu.flags.ovf) = true := by decide

theorem test_subEbGb : (after (cpu [(.bx, 0x0200), (.ax, 0x0075)] [] 0xF003) [(0x00200, [0x9C])] [0x28, 0x07] fun t =>
    t.bus.byte 0x00200 == 0x27 && !t.cpu.flags.cf && t.cpu.flags.pf && !t.cpu.flags.af && !t.cpu.flags.zf &&
      !t.cpu.flags.sf && t.cpu.flags.ovf) = true := by decide

theorem test_subEvGv : (after (cpu [(.bx, 0x0200), (.dx, 0x7AB3)] [] 0xF003) [(0x00200, [0x42, 0x9C])] [0x29, 0x17] fun t =>
    wordAt t 0x00200 == 0x218F && !t.cpu.flags.cf && !t.cpu.flags.pf && t.cpu.flags.af && !t.cpu.flags.zf &&
      !t.cpu.flags.sf && t.cpu.flags.ovf) = true := by decide

theorem test_subGbEb : (after (cpu [(.bx, 0x0200), (.cx, 0x009C)] [] 0xF003) [(0x00200, [0x75])] [0x2A, 0x0F] fun t =>
    t.reg16 .cx == 0x0027 && !t.cpu.flags.cf && t.cpu.flags.pf && !t.cpu.flags.af && !t.cpu.flags.zf &&
      !t.cpu.flags.sf && t.cpu.flags.ovf) = true := by decide

theorem test_subGvEv : (after (cpu [(.bx, 0x0200), (.si, 0x9C42)] [] 0xF003) [(0x00200, [0xB3, 0x7A])] [0x2B, 0x37] fun t =>
    t.reg16 .si == 0x218F && !t.cpu.flags.cf && !t.cpu.flags.pf && t.cpu.flags.af && !t.cpu.flags.zf &&
      !t.cpu.flags.sf && t.cpu.flags.ovf) = true := by decide

theorem test_subEbIb : (after (cpu [(.cx, 0x9C11)] [] 0xF003) [] [0x80, 0xED, 0x75] fun t =>
    t.reg16 .cx == 0x2711 && !t.cpu.flags.cf && t.cpu.flags.pf && !t.cpu.flags.af && !t.cpu.flags.zf &&
      !t.cpu.flags.sf && t.cpu.flags.ovf) = true := by decide

theorem test_subEbIbAlias : (after (cpu [(.cx, 0x9C11)] [] 0xF003) [] [0x82, 0xED, 0x75] fun t =>
    t.reg16 .cx == 0x2711 && !t.cpu.flags.cf && t.cpu.flags.pf && !t.cpu.flags.af && !t.cpu.flags.zf &&
      !t.cpu.flags.sf && t.cpu.flags.ovf) = true := by decide

theorem test_subEvIw : (after (cpu [(.di, 0x9C42)] [] 0xF003) [] [0x81, 0xEF, 0xB3, 0x7A] fun t =>
    t.reg16 .di == 0x218F && !t.cpu.flags.cf && !t.cpu.flags.pf && t.cpu.flags.af && !t.cpu.flags.zf &&
      !t.cpu.flags.sf && t.cpu.flags.ovf) = true := by decide

theorem test_subEvIbSx : (after (cpu [(.di, 0x9C42)] [] 0xF003) [] [0x83, 0xEF, 0x90] fun t =>
    t.reg16 .di == 0x9CB2 && t.cpu.flags.cf && t.cpu.flags.pf && !t.cpu.flags.af && !t.cpu.flags.zf && t.cpu.flags.sf &&
      !t.cpu.flags.ovf) = true := by decide

theorem test_xorEbGb : (after (cpu [(.bx, 0x0200), (.ax, 0x0075)] [] 0xF003) [(0x00200, [0x9C])] [0x30, 0x07] fun t =>
    t.bus.byte 0x00200 == 0xE9 && !t.cpu.flags.cf && !t.cpu.flags.pf && !t.cpu.flags.zf && t.cpu.flags.sf &&
      !t.cpu.flags.ovf) = true := by decide

theorem test_xorGbEb : (after (cpu [(.bx, 0x0200), (.cx, 0x009C)] [] 0xF003) [(0x00200, [0x75])] [0x32, 0x0F] fun t =>
    t.reg16 .cx == 0x00E9 && !t.cpu.flags.cf && !t.cpu.flags.pf && !t.cpu.flags.zf && t.cpu.flags.sf &&
      !t.cpu.flags.ovf) = true := by decide

theorem test_xorGvEv : (after (cpu [(.bx, 0x0200), (.si, 0x9C42)] [] 0xF003) [(0x00200, [0xB3, 0x7A])] [0x33, 0x37] fun t =>
    t.reg16 .si == 0xE6F1 && !t.cpu.flags.cf && !t.cpu.flags.pf && !t.cpu.flags.zf && t.cpu.flags.sf &&
      !t.cpu.flags.ovf) = true := by decide

theorem test_xorAxIw : (after (cpu [(.ax, 0x9C42)] [] 0xF003) [] [0x35, 0xB3, 0x7A] fun t =>
    t.reg16 .ax == 0xE6F1 && !t.cpu.flags.cf && !t.cpu.flags.pf && !t.cpu.flags.zf && t.cpu.flags.sf &&
      !t.cpu.flags.ovf) = true := by decide

theorem test_xorEbIb : (after (cpu [(.cx, 0x9C11)] [] 0xF003) [] [0x80, 0xF5, 0x75] fun t =>
    t.reg16 .cx == 0xE911 && !t.cpu.flags.cf && !t.cpu.flags.pf && !t.cpu.flags.zf && t.cpu.flags.sf &&
      !t.cpu.flags.ovf) = true := by decide

theorem test_xorEbIbAlias : (after (cpu [(.cx, 0x9C11)] [] 0xF003) [] [0x82, 0xF5, 0x75] fun t =>
    t.reg16 .cx == 0xE911 && !t.cpu.flags.cf && !t.cpu.flags.pf && !t.cpu.flags.zf && t.cpu.flags.sf &&
      !t.cpu.flags.ovf) = true := by decide

theorem test_xorEvIw : (after (cpu [(.di, 0x9C42)] [] 0xF003) [] [0x81, 0xF7, 0xB3, 0x7A] fun t =>
    t.reg16 .di == 0xE6F1 && !t.cpu.flags.cf && !t.cpu.flags.pf && !t.cpu.flags.zf && t.cpu.flags.sf &&
      !t.cpu.flags.ovf) = true := by decide

theorem test_xorEvIbSx : (after (cpu [(.di, 0x9C42)] [] 0xF003) [] [0x83, 0xF7, 0x90] fun t =>
    t.reg16 .di == 0x63D2 && !t.cpu.flags.cf && t.cpu.flags.pf && !t.cpu.flags.zf && !t.cpu.flags.sf &&
      !t.cpu.flags.ovf) = true := by decide

theorem test_cmpEbGb : (after (cpu [(.bx, 0x0200), (.ax, 0x0075)] [] 0xF003) [(0x00200, [0x9C])] [0x38, 0x07] fun t =>
    t.bus.byte 0x00200 == 0x9C && !t.cpu.flags.cf && t.cpu.flags.pf && !t.cpu.flags.af && !t.cpu.flags.zf &&
      !t.cpu.flags.sf && t.cpu.flags.ovf) = true := by decide

theorem test_cmpEvGv : (after (cpu [(.bx, 0x0200), (.dx, 0x7AB3)] [] 0xF003) [(0x00200, [0x42, 0x9C])] [0x39, 0x17] fun t =>
    wordAt t 0x00200 == 0x9C42 && !t.cpu.flags.cf && !t.cpu.flags.pf && t.cpu.flags.af && !t.cpu.flags.zf &&
      !t.cpu.flags.sf && t.cpu.flags.ovf) = true := by decide

theorem test_cmpGbEb : (after (cpu [(.bx, 0x0200), (.cx, 0x009C)] [] 0xF003) [(0x00200, [0x75])] [0x3A, 0x0F] fun t =>
    t.reg16 .cx == 0x009C && !t.cpu.flags.cf && t.cpu.flags.pf && !t.cpu.flags.af && !t.cpu.flags.zf &&
      !t.cpu.flags.sf && t.cpu.flags.ovf) = true := by decide

theorem test_cmpGvEv : (after (cpu [(.bx, 0x0200), (.si, 0x9C42)] [] 0xF003) [(0x00200, [0xB3, 0x7A])] [0x3B, 0x37] fun t =>
    t.reg16 .si == 0x9C42 && !t.cpu.flags.cf && !t.cpu.flags.pf && t.cpu.flags.af && !t.cpu.flags.zf &&
      !t.cpu.flags.sf && t.cpu.flags.ovf) = true := by decide

theorem test_cmpAlIb : (after (cpu [(.ax, 0x119C)] [] 0xF003) [] [0x3C, 0x75] fun t =>
    t.reg16 .ax == 0x119C && !t.cpu.flags.cf && t.cpu.flags.pf && !t.cpu.flags.af && !t.cpu.flags.zf &&
      !t.cpu.flags.sf && t.cpu.flags.ovf) = true := by decide

theorem test_cmpEbIb : (after (cpu [(.cx, 0x9C11)] [] 0xF003) [] [0x80, 0xFD, 0x75] fun t =>
    t.reg16 .cx == 0x9C11 && !t.cpu.flags.cf && t.cpu.flags.pf && !t.cpu.flags.af && !t.cpu.flags.zf &&
      !t.cpu.flags.sf && t.cpu.flags.ovf) = true := by decide

theorem test_cmpEbIbAlias : (after (cpu [(.cx, 0x9C11)] [] 0xF003) [] [0x82, 0xFD, 0x75] fun t =>
    t.reg16 .cx == 0x9C11 && !t.cpu.flags.cf && t.cpu.flags.pf && !t.cpu.flags.af && !t.cpu.flags.zf &&
      !t.cpu.flags.sf && t.cpu.flags.ovf) = true := by decide

theorem test_cmpEvIw : (after (cpu [(.di, 0x9C42)] [] 0xF003) [] [0x81, 0xFF, 0xB3, 0x7A] fun t =>
    t.reg16 .di == 0x9C42 && !t.cpu.flags.cf && !t.cpu.flags.pf && t.cpu.flags.af && !t.cpu.flags.zf &&
      !t.cpu.flags.sf && t.cpu.flags.ovf) = true := by decide

theorem test_cmpEvIbSx : (after (cpu [(.di, 0x9C42)] [] 0xF003) [] [0x83, 0xFF, 0x90] fun t =>
    t.reg16 .di == 0x9C42 && t.cpu.flags.cf && t.cpu.flags.pf && !t.cpu.flags.af && !t.cpu.flags.zf && t.cpu.flags.sf &&
      !t.cpu.flags.ovf) = true := by decide

theorem test_jo : (after (cpu [] [] 0xF802) [] [0x70, 0x10] fun t =>
    t.cpu.ip == 0x0112) = true := by decide

theorem test_jno : (after (cpu [] [] 0xF802) [] [0x71, 0x10] fun t =>
    t.cpu.ip == 0x0102) = true := by decide

theorem test_jb : (after (cpu [] [] 0xF003) [] [0x72, 0x10] fun t =>
    t.cpu.ip == 0x0112) = true := by decide

theorem test_jnb : (after (cpu [] [] 0xF003) [] [0x73, 0x10] fun t =>
    t.cpu.ip == 0x0102) = true := by decide

theorem test_jbe : (after (cpu [] [] 0xF042) [] [0x76, 0x10] fun t =>
    t.cpu.ip == 0x0112) = true := by decide

theorem test_js : (after (cpu [] [] 0xF082) [] [0x78, 0x10] fun t =>
    t.cpu.ip == 0x0112) = true := by decide

theorem test_jns : (after (cpu [] [] 0xF082) [] [0x79, 0x10] fun t =>
    t.cpu.ip == 0x0102) = true := by decide

theorem test_jnp : (after (cpu [] [] 0xF006) [] [0x7B, 0x10] fun t =>
    t.cpu.ip == 0x0102) = true := by decide

theorem test_jle : (after (cpu [] [] 0xF802) [] [0x7E, 0x10] fun t =>
    t.cpu.ip == 0x0112) = true := by decide

theorem test_testEbGb : (after (cpu [(.bx, 0x0200), (.ax, 0x0075)]) [(0x00200, [0x9C])] [0x84, 0x07] fun t =>
    t.bus.byte 0x00200 == 0x9C && !t.cpu.flags.cf && t.cpu.flags.pf && !t.cpu.flags.zf && !t.cpu.flags.sf &&
      !t.cpu.flags.ovf) = true := by decide

theorem test_testEvGv : (after (cpu [(.bx, 0x0200), (.dx, 0x7AB3)]) [(0x00200, [0x42, 0x9C])] [0x85, 0x17] fun t =>
    wordAt t 0x00200 == 0x9C42 && !t.cpu.flags.cf && !t.cpu.flags.pf && !t.cpu.flags.zf && !t.cpu.flags.sf &&
      !t.cpu.flags.ovf) = true := by decide

theorem test_testAxIw : (after (cpu [(.ax, 0x9C42)]) [] [0xA9, 0xB3, 0x7A] fun t =>
    t.reg16 .ax == 0x9C42 && !t.cpu.flags.cf && !t.cpu.flags.pf && !t.cpu.flags.zf && !t.cpu.flags.sf &&
      !t.cpu.flags.ovf) = true := by decide

theorem test_testEbIbAlias : (after (cpu [(.cx, 0x009C)]) [] [0xF6, 0xC9, 0x75] fun t =>
    t.reg16 .cx == 0x009C && !t.cpu.flags.cf && t.cpu.flags.pf && !t.cpu.flags.zf && !t.cpu.flags.sf &&
      !t.cpu.flags.ovf) = true := by decide

theorem test_testEvIwAlias : (after (cpu [(.cx, 0x9C42)]) [] [0xF7, 0xC9, 0xB3, 0x7A] fun t =>
    t.reg16 .cx == 0x9C42 && !t.cpu.flags.cf && !t.cpu.flags.pf && !t.cpu.flags.zf && !t.cpu.flags.sf &&
      !t.cpu.flags.ovf && t.cpu.ip == 0x0104) = true := by decide

theorem test_xchgEvGv : (after (cpu [(.bx, 0x0200), (.dx, 0x1234)]) [(0x00200, [0xCD, 0xAB])] [0x87, 0x17] fun t =>
    wordAt t 0x00200 == 0x1234 && t.reg16 .dx == 0xABCD) = true := by decide

theorem test_movEwSwAlias : (after (cpu [] [(.ss, 0x4321)]) [] [0x8C, 0xF0] fun t =>
    t.reg16 .ax == 0x4321) = true := by decide

theorem test_movEsEw : (after (cpu [(.bx, 0x0200)]) [(0x00200, [0xCD, 0xAB])] [0x8E, 0x07] fun t =>
    t.seg .es == 0xABCD && t.cpu.inhibit) = true := by decide

theorem test_movDsEw : (after (cpu [(.cx, 0xABCD)]) [] [0x8E, 0xD9] fun t =>
    t.seg .ds == 0xABCD && t.cpu.inhibit) = true := by decide

theorem test_movSsEwAlias : (after (cpu [(.cx, 0xABCD)]) [] [0x8E, 0xF1] fun t =>
    t.seg .ss == 0xABCD && t.cpu.inhibit) = true := by decide

theorem test_movDsEwAlias : (after (cpu [(.cx, 0xABCD)]) [] [0x8E, 0xF9] fun t =>
    t.seg .ds == 0xABCD && t.cpu.inhibit) = true := by decide

theorem test_movCsEwRefused5 : refuses [0x8E, 0xE8] = true := by decide

theorem test_lesGvRegRefused : refuses [0xC4, 0xC0] = true := by decide

theorem test_movC7Refused : refuses [0xC7, 0xC8, 0x00, 0x00] = true := by decide

theorem test_callMpRegRefused : refuses [0xFF, 0xD8] = true := by decide

theorem test_retIwAlias : (after (cpu [(.sp, 0x0FFA)]) [(0x00FFA, [0x34, 0x02])] [0xC0, 0x04, 0x00] fun t =>
    t.cpu.ip == 0x0234 && t.reg16 .sp == 0x1000) = true := by decide

theorem test_retfIwAlias : (after (cpu [(.sp, 0x0FF8)]) [(0x00FF8, [0x00, 0x02, 0x00, 0x30])] [0xC8, 0x04, 0x00] fun t =>
    t.seg .cs == 0x3000 && t.cpu.ip == 0x0200 && t.reg16 .sp == 0x1000) = true := by decide

theorem test_retfAlias : (after (cpu [(.sp, 0x0FFC)]) [(0x00FFC, [0x00, 0x02, 0x00, 0x30])] [0xC9] fun t =>
    t.seg .cs == 0x3000 && t.cpu.ip == 0x0200 && t.reg16 .sp == 0x1000) = true := by decide

theorem test_movEbIb : (after (cpu [(.bx, 0x0200)]) [] [0xC6, 0x07, 0x5A] fun t =>
    t.bus.byte 0x00200 == 0x5A && t.cpu.ip == 0x0103) = true := by decide

theorem test_rolEvCl : (after (cpu [(.bx, 0x0200), (.cx, 0x0003)] [] 0xF003) [(0x00200, [0xC3, 0xA5])] [0xD3, 0x07] fun t =>
    wordAt t 0x00200 == 0x2E1D && t.cpu.flags.cf && !t.cpu.flags.pf && !t.cpu.flags.af && !t.cpu.flags.zf &&
      !t.cpu.flags.sf) = true := by decide

theorem test_rorEv1 : (after (cpu [(.bx, 0x0200), (.cx, 0x0009)] [] 0xF003) [(0x00200, [0xC3, 0xA5])] [0xD1, 0x0F] fun t =>
    wordAt t 0x00200 == 0xD2E1 && t.cpu.flags.cf && !t.cpu.flags.pf && !t.cpu.flags.af && !t.cpu.flags.zf &&
      !t.cpu.flags.sf && !t.cpu.flags.ovf) = true := by decide

theorem test_rorEbCl : (after (cpu [(.bx, 0x0200), (.cx, 0x0003)] [] 0xF003) [(0x00200, [0xA5])] [0xD2, 0x0F] fun t =>
    t.bus.byte 0x00200 == 0xB4 && t.cpu.flags.cf && !t.cpu.flags.pf && !t.cpu.flags.af && !t.cpu.flags.zf &&
      !t.cpu.flags.sf) = true := by decide

theorem test_rorEvCl : (after (cpu [(.bx, 0x0200), (.cx, 0x0003)] [] 0xF003) [(0x00200, [0xC3, 0xA5])] [0xD3, 0x0F] fun t =>
    wordAt t 0x00200 == 0x74B8 && !t.cpu.flags.cf && !t.cpu.flags.pf && !t.cpu.flags.af && !t.cpu.flags.zf &&
      !t.cpu.flags.sf) = true := by decide

theorem test_rclEv1 : (after (cpu [(.bx, 0x0200), (.cx, 0x0009)] [] 0xF003) [(0x00200, [0xC3, 0xA5])] [0xD1, 0x17] fun t =>
    wordAt t 0x00200 == 0x4B87 && t.cpu.flags.cf && !t.cpu.flags.pf && !t.cpu.flags.af && !t.cpu.flags.zf &&
      !t.cpu.flags.sf && t.cpu.flags.ovf) = true := by decide

theorem test_rclEvCl : (after (cpu [(.bx, 0x0200), (.cx, 0x0003)] [] 0xF003) [(0x00200, [0xC3, 0xA5])] [0xD3, 0x17] fun t =>
    wordAt t 0x00200 == 0x2E1E && t.cpu.flags.cf && !t.cpu.flags.pf && !t.cpu.flags.af && !t.cpu.flags.zf &&
      !t.cpu.flags.sf) = true := by decide

theorem test_rcrEv1 : (after (cpu [(.bx, 0x0200), (.cx, 0x0009)] [] 0xF003) [(0x00200, [0xC3, 0xA5])] [0xD1, 0x1F] fun t =>
    wordAt t 0x00200 == 0xD2E1 && t.cpu.flags.cf && !t.cpu.flags.pf && !t.cpu.flags.af && !t.cpu.flags.zf &&
      !t.cpu.flags.sf && !t.cpu.flags.ovf) = true := by decide

theorem test_rcrEbCl : (after (cpu [(.bx, 0x0200), (.cx, 0x0003)] [] 0xF003) [(0x00200, [0xA5])] [0xD2, 0x1F] fun t =>
    t.bus.byte 0x00200 == 0x74 && t.cpu.flags.cf && !t.cpu.flags.pf && !t.cpu.flags.af && !t.cpu.flags.zf &&
      !t.cpu.flags.sf) = true := by decide

theorem test_rcrEvCl : (after (cpu [(.bx, 0x0200), (.cx, 0x0003)] [] 0xF003) [(0x00200, [0xC3, 0xA5])] [0xD3, 0x1F] fun t =>
    wordAt t 0x00200 == 0xF4B8 && !t.cpu.flags.cf && !t.cpu.flags.pf && !t.cpu.flags.af && !t.cpu.flags.zf &&
      !t.cpu.flags.sf) = true := by decide

theorem test_shlEb1 : (after (cpu [(.bx, 0x0200), (.cx, 0x0009)] [] 0xF003) [(0x00200, [0xA5])] [0xD0, 0x27] fun t =>
    t.bus.byte 0x00200 == 0x4A && t.cpu.flags.cf && !t.cpu.flags.pf && !t.cpu.flags.zf && !t.cpu.flags.sf &&
      t.cpu.flags.ovf) = true := by decide

theorem test_shrEbCl : (after (cpu [(.bx, 0x0200), (.cx, 0x0003)] [] 0xF003) [(0x00200, [0xA5])] [0xD2, 0x2F] fun t =>
    t.bus.byte 0x00200 == 0x14 && t.cpu.flags.cf && t.cpu.flags.pf && !t.cpu.flags.zf && !t.cpu.flags.sf) = true := by decide

theorem test_shrEvCl : (after (cpu [(.bx, 0x0200), (.cx, 0x0003)] [] 0xF003) [(0x00200, [0xC3, 0xA5])] [0xD3, 0x2F] fun t =>
    wordAt t 0x00200 == 0x14B8 && !t.cpu.flags.cf && t.cpu.flags.pf && !t.cpu.flags.zf &&
      !t.cpu.flags.sf) = true := by decide

theorem test_sarEv1 : (after (cpu [(.bx, 0x0200), (.cx, 0x0009)] [] 0xF003) [(0x00200, [0xC3, 0xA5])] [0xD1, 0x3F] fun t =>
    wordAt t 0x00200 == 0xD2E1 && t.cpu.flags.cf && t.cpu.flags.pf && !t.cpu.flags.zf && t.cpu.flags.sf &&
      !t.cpu.flags.ovf) = true := by decide

theorem test_sarEvCl : (after (cpu [(.bx, 0x0200), (.cx, 0x0003)] [] 0xF003) [(0x00200, [0xC3, 0xA5])] [0xD3, 0x3F] fun t =>
    wordAt t 0x00200 == 0xF4B8 && !t.cpu.flags.cf && t.cpu.flags.pf && !t.cpu.flags.zf && t.cpu.flags.sf) = true := by decide

theorem test_setmoEv1 : (after (cpu [] [] 0xF841) [] [0xD1, 0xF0] fun t =>
    t.reg16 .ax == 0xFFFF && !t.cpu.flags.cf && t.cpu.flags.pf && !t.cpu.flags.af && !t.cpu.flags.zf && t.cpu.flags.sf &&
      !t.cpu.flags.ovf) = true := by decide

theorem test_setmocEvCl : (after (cpu [(.cx, 0x0002)] [] 0xF841) [] [0xD3, 0xF0] fun t =>
    t.reg16 .ax == 0xFFFF && !t.cpu.flags.cf && t.cpu.flags.pf && !t.cpu.flags.af && !t.cpu.flags.zf && t.cpu.flags.sf &&
      !t.cpu.flags.ovf) = true := by decide

theorem test_inAxIb : (after (cpu []) [] [0xE5, 0x99] fun t =>
    t.reg16 .ax == 0xFFFF) = true := by decide

theorem test_inAlDx : (after (cpu [(.dx, 0x0099), (.ax, 0x1200)]) [] [0xEC] fun t =>
    t.reg16 .ax == 0x12FF) = true := by decide

theorem test_outIbAl : (after (cpu [(.ax, 0x1234)]) [] [0xE6, 0x99] fun t =>
    t.history.head? == some (.ioWrite 0x99 0x34)) = true := by decide

theorem test_outIbAx : (after (cpu [(.ax, 0x1234)]) [] [0xE7, 0x99] fun t =>
    t.history.head? == some (.ioWrite 0x9A 0x12)) = true := by decide

theorem test_outDxAl : (after (cpu [(.ax, 0x1280), (.dx, 0x00A0)]) [] [0xEE] fun t =>
    t.history.head? == some (.ioWrite 0xA0 0x80)) = true := by decide

theorem test_notEv : (after (cpu [(.ax, 0x0F0F)] [] 0xFFD7) [] [0xF7, 0xD0] fun t =>
    t.reg16 .ax == 0xF0F0 && t.cpu.flags.image == 0xFFD7) = true := by decide

theorem test_negEv : (after (cpu [(.ax, 0x9C42)]) [] [0xF7, 0xD8] fun t =>
    t.reg16 .ax == 0x63BE && t.cpu.flags.cf && t.cpu.flags.pf && t.cpu.flags.af && !t.cpu.flags.zf && !t.cpu.flags.sf &&
      !t.cpu.flags.ovf) = true := by decide

theorem test_decEb : (after (cpu [(.bx, 0x0200)]) [(0x00200, [0x00])] [0xFE, 0x0F] fun t =>
    t.bus.byte 0x00200 == 0xFF && !t.cpu.flags.cf && t.cpu.flags.pf && t.cpu.flags.af && !t.cpu.flags.zf &&
      t.cpu.flags.sf && !t.cpu.flags.ovf) = true := by decide

theorem test_incEv : (after (cpu [(.bx, 0x0200)]) [(0x00200, [0xFF, 0x7F])] [0xFF, 0x07] fun t =>
    wordAt t 0x00200 == 0x8000 && !t.cpu.flags.cf && t.cpu.flags.pf && t.cpu.flags.af && !t.cpu.flags.zf &&
      t.cpu.flags.sf && t.cpu.flags.ovf) = true := by decide

theorem test_pushEs : (after (cpu [(.sp, 0x0100)] [(.es, 0x1234)]) [] [0x06] fun t =>
    wordAt t 0x000FE == 0x1234 && t.reg16 .sp == 0x00FE) = true := by decide

theorem test_pushSs : (after (cpu [(.sp, 0x0100)] [(.ss, 0x1234)]) [] [0x16] fun t =>
    wordAt t 0x1243E == 0x1234 && t.reg16 .sp == 0x00FE) = true := by decide

theorem test_pushDs : (after (cpu [(.sp, 0x0100)] [(.ds, 0x1234)]) [] [0x1E] fun t =>
    wordAt t 0x000FE == 0x1234 && t.reg16 .sp == 0x00FE) = true := by decide

theorem test_popEs : (after (cpu [(.sp, 0x00FE)]) [(0x000FE, [0x21, 0x43])] [0x07] fun t =>
    t.seg .es == 0x4321 && t.reg16 .sp == 0x0100 && t.cpu.inhibit) = true := by decide

theorem test_popDs : (after (cpu [(.sp, 0x00FE)]) [(0x000FE, [0x21, 0x43])] [0x1F] fun t =>
    t.seg .ds == 0x4321 && t.reg16 .sp == 0x0100 && t.cpu.inhibit) = true := by decide

theorem test_cmpsw : (after (cpu [(.si, 0x0010), (.di, 0x0020)] [(.ds, 0x1000), (.es, 0x2000)]
      0xF402) [(0x10010, [0x34, 0x12]), (0x20020, [0x35, 0x12])] [0xA7] fun t =>
    t.cpu.flags.cf && t.cpu.flags.pf && t.cpu.flags.af && !t.cpu.flags.zf && t.cpu.flags.sf && !t.cpu.flags.ovf &&
      t.reg16 .si == 0x000E && t.reg16 .di == 0x001E) = true := by decide

theorem test_scasw : (after (cpu [(.di, 0x0020), (.ax, 0x1234)] [(.es, 0x2000)]) [(0x20020, [0x34, 0x12])] [0xAF] fun t =>
    !t.cpu.flags.cf && t.cpu.flags.pf && !t.cpu.flags.af && t.cpu.flags.zf && !t.cpu.flags.sf && !t.cpu.flags.ovf &&
      t.reg16 .di == 0x0022) = true := by decide

/-! Devices, the scheduler, entries and the host's layout. -/

/-- Writes of ports, in order. -/
def outs (l : List (Word × Byte)) (s : State) : State := l.foldl (fun t p => portWrite p.1 p.2 t) s

/-- The PIC initialised as on the PC (95, B10). -/
def picReady : State := outs [(0x20, 0x13), (0x21, 0x08), (0x21, 0x09), (0x21, 0x00)] State.reset

/-- IR3 and IR5 rise: the acknowledge gives vector 0x0B, IR3 is in service, IR5 waits (95 PI2, PI3). -/
theorem test_pi3 : ((driveIr 0x28 picReady).dev.pic.int && match (driveIr 0x28 picReady).dev.pic.acknowledge with
    | some (v, p) => v == 0x0B && p.isr == 0x08 && p.irr == 0x20 && !p.int
    | none => false) = true := by decide

/-- The spurious vector (95 PI12), and the 8080-mode form refused (95 PI14). -/
theorem test_pi12 : picReady.dev.pic.acknowledge.map (·.1) = some 0x0F ∧
    (driveIr 0x02 (outs [(0x20, 0x12), (0x21, 0x08), (0x21, 0x00)] State.reset)).dev.pic.acknowledge.isNone = true := by decide

/-- OUT of a counter over its clocks, clock 0 being the load clock. -/
def outOver (n : Nat) (l : List (Word × Byte)) : List Bool :=
  (List.range n).map fun k => (pitClocksOf (k + 1) (outs l State.reset).dev.pit.c0).out

/-- Mode 2 with count 3 (95 PT2). -/
theorem test_pt2 : outOver 7 [(0x43, 0x34), (0x40, 3), (0x40, 0)] = [true, true, false, true, true, false, true] := by decide

/-- Mode 3 with count 5: three clocks high, two low (95 PT3). -/
theorem test_pt3 : outOver 7 [(0x43, 0x36), (0x40, 5), (0x40, 0)] = [true, true, true, false, false, true, true] := by decide

/-- Mode 4 with count 3: one clock low (95 PT6). -/
theorem test_pt6 : outOver 6 [(0x43, 0x38), (0x40, 3), (0x40, 0)] = [true, true, true, false, true, true] := by decide

/-- Channel 2 programmed for four bytes to 0x21000 (95 DM2). -/
def dmaReady (mode : Byte) : State :=
  answerOracles [⟨0xA1, 0⟩, ⟨0xA2, 0⟩, ⟨0xA3, 0⟩, ⟨0xA4, 0⟩] (driveDreq 0x4 [] (outs [(0x0C, 0), (0x04, 0), (0x04, 0x10),
    (0x05, 3), (0x05, 0), (0x81, 2), (0x0B, mode), (0x0A, 2)] State.reset))

/-- Four bytes move and terminal count masks the channel (95 DM2). -/
theorem test_dm2 : (let t := dmaStep (dmaReady 0x46)
    t.bus.byte 0x21000 == 0xA1 && t.bus.byte 0x21003 == 0xA4 && t.dev.dma.ch2.tc && t.dev.dma.ch2.mask &&
      t.dev.dma.ch2.curAddr == 0x1004 && t.dev.dma.ch2.curCount == 0xFFFF) = true := by decide +kernel

/-- Cascade mode is refused (95 DM8). -/
theorem test_dm8 : (dmaStep (dmaReady 0xC6)).marks.refusal = some (.dmaForm 2) := by decide +kernel

/-- 5 cycles are 15 ticks: one PIT clock and 3 ticks over (95 SC2). -/
theorem test_sc2 : (budget State.reset.params State.reset.dev.sched 5).1 = 1 ∧
    (budget State.reset.params State.reset.dev.sched 5).2.pitRem = 3 := by decide

/-- NMI goes before the owed trap, which stays owed (95 EX6). -/
theorem test_ex6 : (match boundaryEntry ((boot (cpu [(.sp, 0x1000)]) [(0x8, [0x00, 0x12, 0x00, 0x00])] [0x90]).mapCpu fun c =>
      { c with nmiLatch := true, trapPending := true }) with
    | .next t => t.cpu.ip == 0x1200 && t.cpu.trapPending && wordAt t 0x00FFA == 0x0100
    | _ => false) = true := by decide +kernel

/-- The run of `26 F3 A4` at 0x0100. -/
def esRepMovsb : RepRun :=
  { op := .movs, wide := false, rep := .repe, segOverride := some .es, ipStart := 0x0100, ipLastPfx := 0x0101 }

/-- An interrupted REP run stacks the address of its prefix (95 S3, ST16). -/
theorem test_st16 : (match repStep esRepMovsb ((boot (cpu [(.sp, 0x1000), (.cx, 2)]) [] []).mapCpu fun c => { c with nmiLatch := true, ip := 0x0103 }) with
    | .next t => wordAt t 0x00FFA == 0x0101 && t.reg16 .cx == 2 && t.cpu.repRun.isNone
    | _ => false) = true := by decide +kernel

/-- A write of ROM leaves it (95 MB4), and of memory at the cap is dropped (95 MB5). -/
theorem test_mb4 : ((Bus.mk [(0xF0000, 0xEA)] [{ base := 0xF0000, size := 0x10000 }] [] 0xA0000).store 0xF0000 0x55).byte 0xF0000 =
    0xEA ∧ (State.reset.bus.store 0xA0000 0x55).byte 0xA0000 = 0 := by decide

/-- The host's register buffer (95 B15). -/
theorem test_b15 : (storeRegs { State.reset with cpu := { (cpu [(.ax, 0x0102), (.bx, 0x0304), (.cx, 0x0506), (.dx, 0x0708),
      (.sp, 0x0B0C), (.bp, 0x191A), (.si, 0x1B1C), (.di, 0x1D1E)] [(.ss, 0x090A), (.cs, 0x1314), (.ds, 0x1516), (.es, 0x1718)]
      0xFA43 0x1112) with written := ⟨true, true, true, true, true, true, true, true⟩ } }).1 =
    [0x02, 0x01, 0x04, 0x03, 0x06, 0x05, 0x08, 0x07, 0x0A, 0x09, 0x0C, 0x0B, 0x43, 0xFA, 0x12, 0x11, 0x14, 0x13, 0x16, 0x15,
      0x18, 0x17, 0x1A, 0x19, 0x1C, 0x1B, 0x1E, 0x1D] := by decide

/-- Placed by `withFetchWord`, a table word is what the next step after reset runs (log 11): MOV AL, 0. -/
theorem test_withFetchWord : (match cpuStep (State.reset.withFetchWord 16 0xB000) with
    | .next t => t.cpu.ip == 2 && t.cpu.written.get .ax
    | _ => false) = true := by decide

/-- No length limit on prefixes: a row that finds none left in this step goes on in the next (30 R411, log 13), and no
scheduler step lies between. -/
theorem test_prefixRun : (match runInstruction 1 (beginInstruction (boot (cpu []) [] [0x26, 0x90])) with
    | .next t => t.cpu.decoding && (afterCpuStep t).cpu.decoding && (afterCpuStep t).dev.sched == t.dev.sched &&
        match cpuStep t with
        | .next u => u.cpu.ip == 0x0102 && !u.cpu.decoding && u.cpu.pfx == PrefixState.none
        | _ => false
    | _ => false) = true := by decide

/-- Device wait states by the clock factor: 4 ticks at 3 a clock are 2 clocks, 3 ticks of 2 clocks are 6 (21 R303). -/
theorem test_waits : waitClocks (.divisor 3) 4 = 2 ∧ waitClocks (.divisor 3) 3 = 1 ∧ waitClocks (.multiplier 2) 3 = 6 := by decide

/-- A read's byte appears on the data bus when T3 ends, or the last wait state; ALE stands in T1 and the command strobe from T2
on (21 R302). -/
theorem test_capture : let r : BusRequest := { kind := .memRead, access := .data, addr := 0x12345, data := none }
    let a := tick { BusCycle.idle with pending := some r }
    let c := dataPhase (some 0x5A) 1 (openCycle r BusCycle.idle)
    a.tstate = .t1 ∧ a.addr = 0x12345 ∧ (strobes a).ale = true ∧ (strobes a).mrdc = false ∧ (strobes (tick a)).mrdc = true ∧
      c.tstate = .t3 ∧ c.data = 0 ∧ (ticks 1 c).tstate = .tw ∧ (ticks 1 c).data = 0 ∧ (ticks 2 c).tstate = .t4 ∧
      (ticks 2 c).data = 0x5A ∧ (strobes (ticks 2 c)).mrdc = false := by decide

/-- A write releases the EU in T1, so that a flush may fall in the clock that leads to T2, and stores in its data phase; the EU's
own clocks carry it to T4, and a code fetch is launched then, its byte read in its data phase and queued in its own T4 (21 R301,
R302, R308, R309, R323). -/
theorem test_writeRelease : let b := beginWrite .data 0x12345 0x5A State.reset
    let t := dataWrite .data 0x12345 0x5A .idle (b.clock .idle none)
    b.biu.cycle.tstate = .t1 ∧ b.bus.byte 0x12345 = 0 ∧ (flushQueue b).biu.cycle.tstate = .t2 ∧
      (strobes (flushQueue b).biu.cycle).amwc = true ∧ (flushQueue b).biu.cycle.queueOp = .flush ∧ t.biu.cycle.tstate = .t3 ∧ t.bus.byte 0x12345 = 0x5A ∧ (euClocks 1 t).biu.cycle.tstate = .t4 ∧
      (euClocks 1 t).biu.cycle.busState = .memWrite ∧ (euClocks 2 t).biu.cycle.busState = .codeFetch ∧
      (euClocks 3 t).history.length = 1 ∧ (euClocks 4 t).history.length = 2 ∧ (euClocks 4 t).biu.queue = [] ∧
      (euClocks 5 t).biu.queue.length = 1 ∧ (euClocks 5 t).biu.pfp = 1 := by decide

/-- The flush of a near call with n clocks of the EU between the T1 of its push's last byte and the transfer: before the clock of
the data phase, in it, or after it (21 R302, R309, R327); the word pushed is IP, low byte first (00 R12). -/
theorem test_callFlush : let call := fun n => callNear 0x0200 { State.reset with env := { Env.quiet with euClocks := [0, 0, 0, n] } }
    let shows := fun (t : State) => (t.biu.cycle.tstate, t.biu.cycle.queueOp, t.history.length, t.cpu.ip, t.biu.pfp)
    shows (call 0) = (.t3, .idle, 2, 0x0200, 0x0200) ∧ shows (call 1) = (.t3, .flush, 2, 0x0200, 0x0200) ∧
      shows (call 2) = (.t4, .flush, 2, 0x0200, 0x0200) ∧ shows (call 3) = (.ti, .flush, 2, 0x0200, 0x0200) := by decide

/-- A flush discards the byte of a code fetch in progress, whose cycle completes, its read recorded (21 R327, R331). -/
theorem test_flushInFlight : let s := euClocks 2 State.reset
    let t := flushQueue s
    s.biu.fetching.isSome = true ∧ s.history = [] ∧ t.biu.fetching = none ∧ t.biu.cycle.busState = .codeFetch ∧
      t.history.length = 1 ∧ (t.clock .idle none).biu.cycle.tstate = .t4 ∧ (t.clock .idle none).biu.queue = [] := by decide

/-- One queue operation a clock: the byte taken shows in its own clock and is gone in the next (21 R300, R324). -/
theorem test_queueOp : let c := (fetch8 (boot (cpu []) [] [0x90])).2.biu.cycle
    c.queueOp = .subsequent ∧ c.queueByte = some 0x90 ∧ (tick c).queueOp = .idle ∧ (tick c).queueByte = none := by decide

/-- The clock in which a byte is taken launches a code fetch where the bus is free and the queue has room, that of the byte taken
counted, and none where fetching is suspended (21 R308, R323, R329). -/
theorem test_takeLaunches : let s := euClocks 16 State.reset
    let c := (takeByte .first s).biu.cycle
    let d := (takeByte .first (suspendFetch s)).biu.cycle
    s.biu.queue.length = 4 ∧ s.biu.cycle.tstate = .t4 ∧ c.tstate = .t1 ∧ c.busState = .codeFetch ∧ c.queueOp = .first ∧
      (takeByte .first s).biu.queue.length = 3 ∧ d.tstate = .ti ∧ d.queueOp = .first := by decide +kernel

/-- The instruction record (30 R404): ES: REP MOVSB is three bytes with both prefixes, MOV AX, [BP-2] three with a memory operand,
JMP -2 two and a relative jump, ADD AX, CX has a ModR/M byte and no memory operand. -/
theorem test_record : let shows := fun (bs : List Byte) =>
      match decodeRecord .refuse 0x0100 bs with
      | .ok (r, _) => some (r.opcode, r.size, [r.hasModrm, r.usesMemory, r.relativeJump])
      | .error _ => none
    shows [0x26, 0xF3, 0xA4, 0x90] = some (0xA4, 3, [false, false, false]) ∧
      shows [0x8B, 0x46, 0xFE] = some (0x8B, 3, [true, true, false]) ∧
      shows [0xEB, 0xFE] = some (0xEB, 2, [false, false, true]) ∧
      shows [0x01, 0xC8] = some (0x01, 2, [true, false, false]) := by decide

/-- The error of a decoder's answer. -/
def errorOf {e a : Type} : Except e a → Option e
  | .error x => some x
  | .ok _ => none

/-- The prefixes of a record, and no record where F1 is refused or the bytes end inside the instruction (30 R404, R410). -/
theorem test_recordPrefixes : let prefixes := fun (bs : List Byte) => (decodeRecord .asAlias 0x0100 bs).toOption.map fun r => r.1.prefixes
    prefixes [0x26, 0xF3, 0xF2, 0x2E, 0xA4] =
      some { mask := { PrefixState.none.mask with es := true, cs := true, rep := true, repne := true }, segOverride := some .cs,
             rep := some .repne } ∧
      prefixes [0xF1, 0x90] = some { PrefixState.none with mask := { PrefixState.none.mask with lock := true } } ∧
      errorOf (decodeRecord .refuse 0x0100 [0x26, 0xF1, 0x90]) = some .undocumentedPrefix ∧
      errorOf (decodeRecord .refuse 0x0100 [0x2E, 0x8B]) = some .truncated := by decide

/-- A step that stops shows its reason as the mark of the state observed (70 R1533): 0F is refused (30 R456). -/
theorem test_observed : (observed (boot (cpu []) [] [0x0F])).marks.refusal = some (.unmodelledForm 0x00100 0x0F) := by decide

/-! Witnesses: for every statement with hypotheses, a state and operands that meet them all, each clause at a boundary. -/

/-- Prefixes, F1 among them where `UNDOC_MODE = alias`, before an instruction with a ModR/M byte, one with a direct offset and a
jump; and F1 where it is refused. -/
theorem witness_decodeRecord : let s := { State.reset with params := { Params.model with undocMode := .asAlias } }
    let ps : List Instr := [.prefixEs, .prefixLockAlias, .prefixRep]
    s.cpu.pfx = PrefixState.none ∧ s.params.undocMode ≠ .refuse ∧ (∀ q ∈ ps, isPrefix q = true) ∧
      (∀ i ∈ [Instr.movGvEv .ax (.mem (.baseD8 .bp 0xFE)), .movAlMoffs 0x0100, .jmpRel8 0xFE],
        isPrefix i = false ∧ i.wf = true) ∧
      State.reset.params.undocMode = .refuse ∧ Instr.prefixLockAlias ∈ ps ∧ Instr.prefixLockAlias ∉ [Instr.prefixEs] := by decide

/-- A byte register, and a word register it is no half of. -/
theorem witness_registerHalves : Reg16.bx ≠ wholeOf .al := by decide

/-- An override, and none. -/
theorem witness_effectiveAddresses : (overridePrefix .es State.reset).cpu.pfx.segOverride = some .es ∧
    State.reset.cpu.pfx.segOverride = none := by decide

/-- DIV at the boundary: 0xFFFF / 0x101 is 0xFF and fits, 0x0100 / 1 does not, and 0 is no divisor. -/
theorem witness_divForms : (¬ ((0x101 : Nat) = 0 ∨ 0xFFFF / 0x101 > 0xFF)) ∧ 0x0100 / 1 > 0xFF ∧
    ¬ ((2 : Nat) = 0 ∨ 0x1FFFF / 2 > 0xFFFF) ∧ 0x20000 / 2 > 0xFFFF := by decide

/-- IDIV at the boundary: quotients -127 and 127 fit, -128 and 128 do not (41 R723, 95 AR38 to AR40). -/
theorem witness_idivForms : ¬ ((1 : Int) = 0 ∨ Int.tdiv (-127) 1 > 127 ∨ Int.tdiv (-127) 1 < -127) ∧
    Int.tdiv (-128) 1 < -127 ∧ Int.tdiv 128 1 > 127 ∧
    ¬ ((1 : Int) = 0 ∨ Int.tdiv 32767 1 > 32767 ∨ Int.tdiv 32767 1 < -32767) ∧ Int.tdiv (-32768) 1 < -32767 := by decide

/-- AAM with base 0, and with base 10. -/
theorem witness_asciiMulDiv : (0 : Byte) = 0 ∧ (10 : Byte) ≠ 0 := by decide

/-- Counts 0, 1 and more, from CL, at both widths. -/
theorem witness_shiftForms : countCl State.reset = 0 ∧ countCl (State.reset.setReg8 .cl 1) = 1 ∧
    countCl (State.reset.setReg8 .cl 0xFF) = 255 ∧ (8 = 8 ∨ 8 = 16) ∧ (16 = 8 ∨ 16 = 16) := by decide

/-- `UNDOC_MODE` is `refuse` by default (00 R8), and may be `asAlias`. -/
theorem witness_undocMode : State.reset.params.undocMode = .refuse ∧
    { State.reset.params with undocMode := .asAlias }.undocMode = .asAlias := by decide

/-- A stack in writable memory (PushPopRoundTrip, InterruptRoundTrip). -/
def stackState : State := State.reset.setReg16 .sp 0x1000

theorem witness_stack : Memory.wf stackState.bus.mem = true ∧
    ∀ a ∈ wordCells (stackState.seg .ss) (stackState.reg16 .sp - 2) ++ wordCells (stackState.seg .ss) (stackState.reg16 .sp - 4) ++
      wordCells (stackState.seg .ss) (stackState.reg16 .sp - 6), stackState.bus.writable a = true :=
  ⟨by decide, List.all_eq_true.mp (by decide)⟩

/-- A string instruction without a REP prefix, and with one, CX being 0 and not 0. -/
theorem witness_stringForms : State.reset.cpu.pfx.rep = none ∧ (repPrefix .repe State.reset).cpu.pfx.rep = some .repe ∧
    (repPrefix .repe State.reset).reg16 .cx = 0 ∧ ((repPrefix .repne State.reset).setReg16 .cx 1).reg16 .cx ≠ 0 := by decide

/-- A run that stops after its next iteration (CX = 1), and one that goes on (MOVS with CX = 2). -/
theorem witness_stops : Stops (runOf .movs false .repe State.reset) ((State.reset.setReg16 .cx 1).cpu.put16 .cx 0) ∧
    ¬ Stops (runOf .movs false .repe State.reset) ((State.reset.setReg16 .cx 2).cpu.put16 .cx 1) := by
  refine ⟨.inl rfl, ?_⟩
  rintro (h | ⟨h | h, -⟩) <;> exact absurd h (by decide)

/-- Every condition holds for some flags and fails for others (44 R1003). -/
theorem witness_conditions : ∀ cc : Fin 16,
    (holds cc (flagsOfWord 0xF002) ∨ holds cc (flagsOfWord 0xFFD7) ∨ holds cc (flagsOfWord 0xF802)) ∧
    (¬ holds cc (flagsOfWord 0xF002) ∨ ¬ holds cc (flagsOfWord 0xFFD7) ∨ ¬ holds cc (flagsOfWord 0xF802)) := by
  intro cc
  rcases cc with ⟨n, hn⟩
  rcases n with _ | _ | _ | _ | _ | _ | _ | _ | _ | _ | _ | _ | _ | _ | _ | _ | n <;>
    first | omega | simp (decide := true) [holds]

/-- LOOP at the boundary: CX = 1 falls through, CX = 2 jumps, CX = 0 wraps and jumps; JCXZ on CX = 0 and CX = 1. -/
theorem witness_loopForms : (1 : Word) - 1 = 0 ∧ (2 : Word) - 1 ≠ 0 ∧ (0 : Word) - 1 ≠ 0 ∧ State.reset.reg16 .cx = 0 ∧
    (State.reset.setReg16 .cx 1).reg16 .cx ≠ 0 := by decide

/-- INTO with OF = 1 and OF = 0; the TEST pin asserted and not. -/
theorem witness_intoWait : (flagsOfWord 0xF802).ovf = true ∧ State.reset.cpu.flags.ovf = false ∧
    State.reset.params.testAsserted = true ∧ (driveTest false State.reset).params.testAsserted = false := by decide

/-- Ports of every clause of IN and OUT: unclaimed, 0x61, 0x21 with the PIC initialised, 0xA0. -/
theorem witness_ports : portUse State.reset.params.oraclePorts 0x99 = .unclaimed ∧
    (((State.reset.mapPic fun p => p.icw1 0x13).mapPic fun p => p.nextIcw 0x08).mapPic fun p =>
      p.nextIcw 0x09).dev.pic.init = .ready ∧ (0x20 : Word) + 1 = 0x21 ∧ (0x60 : Word) + 1 = 0x61 ∧ (0x9F : Word) + 1 = 0xA0 ∧
    portUse State.reset.params.oraclePorts (0xFFFF + 1) = .dmaXfer 0 := by decide

/-- An alias with its documented instruction, and a refused form with its opcode. -/
theorem witness_aliases : documented .retAlias = some (.ret, 0xC1) ∧ undocumented .salc = some 0xD6 ∧
    refusedForm .popCsRefused = some 0x0F := by decide

/-- A state that meets all of StepRunsDecoded's hypotheses: `83 C3 FF` at CS:IP, nothing due. -/
def addCode : State := boot (cpu []) [] [0x83, 0xC3, 0xFF]

theorem witness_stepRunsDecoded : Running addCode ∧ entryDue addCode = false ∧ QueueBounded addCode ∧ QueueAligned addCode ∧
    PlainCode addCode ∧ decode (stream addCode) = .ok (.addEvIbSx (.reg .bx) 0xFF, [0, 0, 0]) := by
  refine ⟨⟨⟨rfl, rfl, rfl, rfl⟩, rfl⟩, rfl, by unfold QueueBounded; decide, ⟨rfl, trivial, fetchOnBus_none rfl⟩, ?_, ?_⟩
  · unfold PlainCode; decide
  · rfl

/-- A REP run (StepRunsDecoded, InstructionFrame, RepSteps). -/
def repState : State := (State.reset.setReg16 .cx 3).setRepRun (some (runOf .movs false .repe State.reset))

/-- A halted slice, a REP step and a boundary entry, each with its next state, for what StepRunsDecoded says of them. -/
theorem witness_stepSchedules : ∀ s, s = State.reset.mapCpu (fun c => { c with halted := true }) ∨ s = repState ∨
      s = State.reset.mapCpu (fun c => { c with nmiLatch := true }) →
    s.cpu.decoding = false ∧ (s.cpu.halted = true ∨ s.cpu.repRun.isSome = true ∨ entryDue s = true) ∧
      ∃ t, cpuStep s = .next t := by
  rintro s (rfl | rfl | rfl) <;> exact ⟨rfl, by decide, _, rfl⟩

/-- An instruction whose prefixes go on in the next step. -/
theorem witness_decoding : Active (addCode.setDecoding true) ∧ (addCode.setDecoding true).cpu.decoding = true :=
  ⟨⟨rfl, rfl, rfl, rfl⟩, rfl⟩

/-- The same with all six bytes of the stream in one instruction: `81 86 34 12 78 56` (95 EN1). -/
theorem witness_longestInstruction : decode (stream (boot (cpu []) [] [0x81, 0x86, 0x34, 0x12, 0x78, 0x56])) =
    .ok (.addEvIw (.mem (.baseD16 .bp 0x1234)) 0x5678, []) := rfl

/-- No REP run, and one. -/
theorem witness_instructionFrame : State.reset.cpu.repRun = none ∧ repState.cpu.repRun ≠ none := by decide

/-- Each clause of BoundaryEntries: NMI; INTR with a vector; INTR in an 8080-mode PIC, refused; the trap; inhibited. -/
def intrState (icw4 : Byte) : State :=
  { State.reset with
    cpu := { State.reset.cpu with flags := flagsOfWord 0xF202 }
    dev := { State.reset.dev with pic :=
      (((Pic.reset.icw1 0x13).nextIcw 0x08).nextIcw icw4).setLine 1 true } }

theorem witness_boundaryEntries :
    (∀ s, s = State.reset.mapCpu (fun c => { c with nmiLatch := true }) ∨ s = intrState 0x09 ∨ s = intrState 0x08 ∨
        s = State.reset.mapCpu (fun c => { c with trapPending := true }) →
      Running s ∧ entryDue s = true) ∧
    (∃ p, (intrState 0x09).dev.pic.acknowledge = some (0x09, p)) ∧ (intrState 0x08).dev.pic.acknowledge = none ∧
    entryDue ((intrState 0x09).mapCpu fun c => { c with inhibit := true }) = false := by
  refine ⟨?_, ⟨_, rfl⟩, rfl, rfl⟩
  rintro s (rfl | rfl | rfl | rfl) <;> exact ⟨⟨⟨rfl, rfl, rfl, rfl⟩, rfl⟩, by decide⟩

/-- Each clause of HaltedSlices: idle, woken by NMI, woken by INTR with a vector and with a refused acknowledge. -/
theorem witness_haltedSlices : let h := fun s : State => s.mapCpu fun c => { c with halted := true }
    ((h State.reset).cpu.nmiLatch = false ∧ ¬ ((h State.reset).cpu.flags.ifl = true ∧ (h State.reset).dev.pic.int = true)) ∧
    (h (State.reset.mapCpu fun c => { c with nmiLatch := true })).cpu.nmiLatch = true ∧
    ((h (intrState 0x09)).cpu.nmiLatch = false ∧ (h (intrState 0x09)).cpu.flags.ifl = true ∧
      (h (intrState 0x09)).dev.pic.int = true ∧ (h (intrState 0x08)).dev.pic.int = true ∧
      (h (intrState 0x08)).dev.pic.acknowledge = none) := by decide

/-- Each clause of RepSteps: nothing pending, an NMI, an INTR with a vector and with a refused acknowledge, the trap. -/
theorem witness_repSteps : repState.marks.fault = none ∧ repState.marks.refusal = none ∧ repState.cpu.halted = false ∧
    repState.cpu.repRun = some (runOf .movs false .repe State.reset) ∧ repState.cpu.nmiLatch = false ∧
    ¬ (repState.cpu.flags.ifl = true ∧ repState.dev.pic.int = true) ∧
    ¬ (repState.params.repTfPerIteration = true ∧ repState.cpu.tempTF = true) ∧
    (repState.mapCpu fun c => { c with nmiLatch := true }).cpu.nmiLatch = true ∧
    (∀ w, w = 0x09 ∨ w = 0x08 → let s := (intrState w).setRepRun repState.cpu.repRun
      s.cpu.nmiLatch = false ∧ s.cpu.flags.ifl = true ∧ s.dev.pic.int = true) ∧
    (intrState 0x09).dev.pic.acknowledge.isSome = true ∧ (intrState 0x08).dev.pic.acknowledge = none ∧
    repState.params.repTfPerIteration = true ∧ (repState.mapCpu fun c => { c with tempTF := true }).cpu.tempTF = true := by
  refine ⟨rfl, rfl, rfl, rfl, rfl, by decide, by decide, rfl, ?_, rfl, rfl, rfl, rfl⟩
  rintro w (rfl | rfl) <;> decide

/-- A step (`witness_inv`), a free bus, an acknowledge that answers, and no REP prefix, for EventHistory. -/
theorem witness_eventHistory : State.reset.biu.cycle.tstate = .ti ∧ (euClocks 4 State.reset).biu.cycle.tstate = .t4 ∧
    (∃ v t, acknowledge (intrState 0x09) = some (v, t)) ∧ State.reset.cpu.pfx.rep = none :=
  ⟨rfl, by decide, ⟨_, _, rfl⟩, rfl⟩

/-- Cycles scheduled, counters whose counts are legal, and no PIT clock in a step of 3 cycles, one in a step of 4. -/
theorem witness_schedulerStep : let s := scheduleTiming [3] [] State.reset
    s.env.cycles = 3 :: [] ∧ s.dev.pit.c0.free = false ∧ s.dev.pit.c1.free = false ∧ s.dev.pit.c2.free = false ∧
    (budget s.params s.dev.sched 3).1 = 0 ∧ (budget s.params s.dev.sched 4).1 = 1 := by decide

/-- A clock in which OUT0 changes and IR0 with it, and one in which OUT1 rises and a refresh is requested (PitTicked). -/
theorem witness_pitTicked : (let s := pitClock (pitClock (outs [(0x43, 0x10), (0x40, 1)] State.reset));
      s.dev.pit.c0.out = true ∧ s.dev.pic.ir.getLsbD 0 = true) ∧
    (let s := (pitClock (pitClock (outs [(0x43, 0x54), (0x41, 2)] State.reset))).mapDev fun d => { d with refreshReq := false };
      s.dev.pit.c1.out = false ∧ (pitClock s).dev.pit.c1.out = true ∧ s.dev.refreshReq = false ∧
        (pitClock s).dev.refreshReq = true) := by decide

/-- A state that meets the invariant, and its next state. -/
theorem witness_inv : Inv addCode ∧ ∃ t, step addCode = .next t := by
  refine ⟨⟨by unfold QueueBounded; decide, ⟨rfl, trivial, fetchOnBus_none rfl⟩, by unfold MemoryCanonical; decide⟩, ?_⟩
  have h : (match step addCode with | .next _ => true | _ => false) = true := by decide +kernel
  cases k : step addCode with
  | next t => exact ⟨t, rfl⟩
  | fault f => rw [k] at h; cases h
  | refused r => rw [k] at h; cases h

/-- Each kind of byte no write reaches, at the edge of its range: a device's granule, a ROM granule, ROM, the cap. -/
def mappedBus : Bus :=
  { State.reset.bus with romRegions := [{ base := 0xFE000, size := 0x2000 }]
                         mmioMap := [{ granule := 0x5C, owner := .device 0 }, { granule := 0x60, owner := .rom }] }

theorem witness_fixedBytes : mappedBus.isDevice 0xB8000 = true ∧ mappedBus.isDevice 0xB7FFF = false ∧
    mappedBus.isRomGranule 0xC1FFF = true ∧ mappedBus.romFlag 0xFE000 = true ∧ mappedBus.romFlag 0xFDFFF = false ∧
    mappedBus.convMemCap ≤ (0xA0000 : LinAddr).toNat ∧ ¬ mappedBus.convMemCap ≤ (0x9FFFF : LinAddr).toNat := by decide

/-- Each clause of StoredBytes at the edges of its range: bytes that take a store, beside each kind of byte that drops it, and a
word whose offset wraps. -/
theorem witness_storedBytes : Memory.wf mappedBus.mem = true ∧
    (mappedBus.isDevice 0x9FFFF = false ∧ mappedBus.isRomGranule 0x9FFFF = false ∧ mappedBus.romFlag 0x9FFFF = false ∧
      (0x9FFFF : LinAddr).toNat < mappedBus.convMemCap) ∧
    (∀ a ∈ wordCells 0x1000 0xFFFF, mappedBus.writable a = true) ∧
    (let s := { State.reset with bus := mappedBus };
      mappedBus.writable (lin (s.seg (effSeg (.direct 0x0200) s)) (effAddr (.direct 0x0200) s)) = true) :=
  ⟨by decide, by decide, List.all_eq_true.mp (by decide), by decide⟩

/-- A free bus in Ti and in T4, with room for a code fetch and without (the queue full; fetching suspended), and cycles at each
T-state, a request pending and none, with wait states left and none. -/
theorem witness_busCycles : let r : BusRequest := { kind := .memRead, access := .data, addr := 1, data := none }
    let ti := State.reset
    let t4 := euClocks 4 State.reset
    let full := euClocks 16 State.reset
    (ti.biu.cycle.tstate = .ti ∧ t4.biu.cycle.tstate = .t4 ∧ full.biu.cycle.tstate = .t4 ∧ full.biu.queue.length = 4) ∧
    (∀ s ∈ [ti, t4, full, suspendFetch ti], s.biu.cycle.pending = none ∧ s.biu.fetching = none) ∧
    (t4.biu.queue.length = 1 ∧ t4.biu.fetchSuspended = false ∧ (suspendFetch ti).biu.fetchSuspended = true) ∧
    (tick { ti.biu.cycle with pending := some r }).tstate = .t1 ∧ (openCycle r ti.biu.cycle).tstate = .t2 ∧
    (let c := dataPhase (some 2) 1 (openCycle r ti.biu.cycle);
      c.tstate = .t3 ∧ c.waits = 0 + 1 ∧ (tick c).tstate = .tw ∧ (tick c).waits = 0) ∧
    State.reset.bus.isDevice 0 = false := by decide +kernel

/-- An initialised PIC with a winner, level 3 before level 5; the same with level 3 the lowest; in special mask mode with level 3
in service; with no winner; with automatic EOI, rotating and not. -/
theorem witness_picPriority : let p := { ((Pic.reset.icw1 0x13).nextIcw 0x08).nextIcw 0x09 with irr := 0x28 }
    (p.smm = false ∧ p.winner = some 3 ∧ p.upm = true ∧ p.sngl = true ∧ p.aeoi = false) ∧
    { p with lowest := 3 }.winner = some 5 ∧
    ({ p with smm := true, isr := 0x08 }.winner = some 5 ∧ { p with isr := 0x08 }.winner = none) ∧
    { p with irr := 0 }.winner = none ∧ { p with aeoi := true, rotAeoi := true }.winner = some 3 ∧
    ({ p with sngl := false, icw3 := 0x04 }.winner = some 3 ∧ (0x04 : Byte).getLsbD (3 : BitVec 3).toNat = false) := by decide

/-- The PIC at every place of its initialisation, commands of every kind, and levels in service and none. -/
theorem witness_picCommands : (0x13 : Byte).getLsbD 4 = true ∧ (0x12 : Byte).getLsbD 0 = false ∧ Pic.reset.init = .uninit ∧
    (Pic.reset.icw1 0x13).init = .wantIcw2 ∧ ((Pic.reset.icw1 0x11).nextIcw 0x08).init = .wantIcw3 ∧
    ((Pic.reset.icw1 0x13).nextIcw 0x08).init = .wantIcw4 ∧ picReady.dev.pic.init = .ready ∧
    ((0x0C : Byte).getLsbD 4 = false ∧ (0x0C : Byte).getLsbD 3 = true) ∧
    (let p := { Pic.reset with isr := 0x88 };
      p.lowest = 7 ∧ p.smm = false ∧ p.isr.getLsbD (3 : BitVec 3).toNat = true ∧
        ∀ q : BitVec 3, q < 3 → p.isr.getLsbD q.toNat = false) ∧ Pic.reset.isr = 0 ∧
    (let p := { picReady.dev.pic with irr := 0x08, poll := true };
      p.poll = true ∧ p.winner = some 3 ∧ p.ltim = false) ∧ picReady.dev.pic.winner = none ∧
    picReady.dev.pic.poll = false := by decide

/-- A counter with GATE = 1, the count at its least (1) and its greatest (0, for 65536). -/
theorem witness_pitModeZero : (PitCounter.reset true).gate = true ∧ countOf 0 0 = 65536 ∧ countOf 1 0 = 1 := by decide

/-- A counter with GATE = 1 and no edge, the least count of modes 2 and 3, and a counter paused. -/
theorem witness_pitModes : (PitCounter.reset true).gate = true ∧ (PitCounter.reset true).gateRise = false ∧
    mkWord 0 2 ≠ 1 ∧ countOf 2 0 = 2 ∧
    (let c := PitCounter.reset false;
      c.gate = false ∧ c.gateRise = false ∧ c.loadPending = false ∧ c.mode ≠ .m1 ∧ c.mode ≠ .m5) := by decide

/-- A counter that reads its counting element, in each of its phases; the DMA flip-flop at the low byte. -/
theorem witness_devicePorts : (2 : BitVec 2) ≠ 3 ∧ (0xB0 : Byte).extractLsb' 6 2 = (2 : BitVec 2) ∧
    (0xC0 : Byte).extractLsb' 6 2 = (3 : BitVec 2) ∧
    (let c := { ((PitCounter.reset true).control 0x30).writeCount 5 with loaded := true };
      c.programmed = true ∧ c.loaded = true ∧ c.free = false ∧ (c.control 0x30).free = false ∧ (c.writeCount 0).free = false ∧
        c.rl = .both ∧ c.rff = false ∧ c.afterRead.rff = true) ∧
    ((PitCounter.reset true).control 0x10).rl = .lsb ∧ ((PitCounter.reset true).control 0x20).rl = .msb ∧
    State.reset.dev.dma.ff = false ∧ (0x06 : Byte).setWidth 2 = (2 : BitVec 2) := by decide

/-- The last transfer of the shortest count (0) and of the longest (0xFFFF), with and without autoinitialise. -/
theorem witness_dmaTerminalCount : 0 ≤ ({ DmaChannel.reset with curCount := 0 } : DmaChannel).curCount.toNat ∧
    65535 = ({ DmaChannel.reset with curCount := 0xFFFF } : DmaChannel).curCount.toNat ∧
    ({ DmaChannel.reset with mode := 0x04 } : DmaChannel).autoinit = true ∧ DmaChannel.reset.autoinit = false := by decide

/-- Channels of each transfer type, a disabled controller, one with no request, and a refresh request alone. -/
theorem witness_dmaTransfers : (State.reset.dev.dma.writeMode 0x46).ch2.xfer = .write ∧
    (State.reset.dev.dma.writeMode 0x4A).ch2.xfer = .read ∧ DmaChannel.reset.xfer = .verify ∧
    (State.reset.mapDma fun d => { d with command := 0x04 }).dev.dma.command.getLsbD 2 = true ∧
    State.reset.env.dreqSamples = [] ∧ (∀ c, dmaRequest State.reset c = false) ∧
    (let s := outs [(0x0B, 0x58), (0x0A, 0)] { State.reset with dev := { State.reset.dev with refreshReq := true } };
      s.env.dreqSamples = [] ∧ s.dev.dma.command = 0 ∧ s.dev.refreshReq = true ∧ s.dev.dma.ch0.mask = false ∧
        s.dev.dma.ch0.req = false ∧ s.dev.dma.ch0.select = .single ∧ s.dev.dma.ch0.xfer = .read ∧
        ∀ c, c ≠ 0 → dmaRequest s c = false) := by decide

/-- Channel 2 alone asking, in each mode select, with the count at 0 and at 1, and its DREQ sampled low after one transfer. -/
def dmaAsking (mode : Byte) (count : Byte) (samples : List (BitVec 4)) : State :=
  (outs [(0x0B, mode), (0x05, count), (0x05, 0), (0x0A, 0x02)] State.reset).mapEnv fun e =>
    { e with dreq := 4, dreqSamples := samples }

theorem witness_dmaTurn : ∀ mode, mode = 0x02 ∨ mode = 0x42 ∨ mode = 0x82 → let s := dmaAsking mode 1 []
    s.dev.dma.command.getLsbD 2 = false ∧ (∀ q, Asks s q ↔ q = 2) ∧ ¬ RefusesDma s 2 ∧ Chosen s [] 2 ∧
      (s.dev.dma.get 2).curCount.toNat = 1 ∧ ((dmaAsking mode 0 []).dev.dma.get 2).curCount.toNat = 0 := by
  unfold Chosen RefusesDma Before Asks
  rintro mode (rfl | rfl | rfl) <;> decide

theorem witness_dmaSelects : ((dmaAsking 0x02 1 []).dev.dma.get 2).select = .demand ∧
    ((dmaAsking 0x42 1 []).dev.dma.get 2).select = .single ∧ ((dmaAsking 0x82 1 []).dev.dma.get 2).select = .block ∧
    dreqOf (sampledTransfers 2 1 (sampleDreq (dmaAsking 0x02 1 [4, 0]))) 2 = false ∧
    dreqOf (sampledTransfers 2 1 (sampleDreq (dmaAsking 0x02 1 [4, 4]))) 2 = true := by decide

/-- Channels 1 and 2 asking: 1 before 2 in fixed priority, 2 before 1 where the last served is 1, 2 when 1 is done; and each of
the refused forms. -/
def twoAsking (command : Byte) : State :=
  outs [(0x08, command), (0x09, 0x05), (0x09, 0x06), (0x0B, 0x41), (0x0B, 0x42)] State.reset

theorem witness_dmaChoice : Chosen (twoAsking 0) [] 1 ∧ Chosen (servedLast 1 (twoAsking 0x10)) [] 2 ∧
    Chosen (twoAsking 0) [1] 2 ∧ RefusesDma (twoAsking 0x01) 1 ∧ RefusesDma (outs [(0x0B, 0xC2)] State.reset) 2 ∧ RefusesDma (outs [(0x0B, 0x4E)] State.reset) 2 ∧
    RefusesDma (outs [(0x0B, 0x02), (0x09, 0x06)] State.reset) 2 := by
  unfold Chosen RefusesDma Before Asks
  refine ⟨⟨?_, ?_, ?_⟩, ⟨?_, ?_, ?_⟩, ⟨?_, ?_, ?_⟩, ?_, ?_, ?_, ?_⟩ <;> decide

/-- A direct start leaves every general register written. -/
theorem witness_registerLayout : ∀ r, (directStart [] none State.reset).cpu.written.get r = true := by
  intro r; cases r <;> rfl

/-- Well-formed instructions at the ends of their operands' ranges (DecodeEncode). -/
theorem witness_decodeEncode : (Instr.addEvIw (.mem (.baseD16 .bx 0xFFFF)) 0).wf = true ∧ (Instr.esc 0x3F (.reg .di)).wf = true ∧
    (Instr.feRefused 2 (.reg .al)).wf = true := by decide

end Sys2Proof.Tests
end

/-! Registers, FLAGS and reset (10_state): the read-after-write rules of the byte registers, the FLAGS word bit by bit, and the
reset values. -/

namespace Sys2Proof.Machine

/-! Byte registers as halves of word registers (10 R102, R103). -/

theorem halfOf_withHalf (w : Word) (h k : Bool) (v : Byte) :
    halfOf (withHalf w h v) k = if k = h then v else halfOf w k := by
  cases h <;> cases k <;> simp [halfOf, withHalf]

/-- The word register and the half, together, name the byte register. -/
theorem reg8_eq_iff (q r : Reg8) : q = r ↔ wholeOf q = wholeOf r ∧ isHighHalf q = isHighHalf r := by
  cases q <;> cases r <;> decide

theorem reg16_setReg8 (s : State) (r : Reg8) (q : Reg16) (v : Byte) : (s.setReg8 r v).reg16 q =
    if q = wholeOf r then withHalf (s.reg16 (wholeOf r)) (isHighHalf r) v else s.reg16 q :=
  RegFile.get_set _ _ _ _

theorem reg8_setReg8 (s : State) (r q : Reg8) (v : Byte) :
    (s.setReg8 r v).reg8 q = if q = r then v else s.reg8 q := by
  simp only [State.reg8, reg16_setReg8, reg8_eq_iff]
  by_cases hw : wholeOf q = wholeOf r
  · simp only [hw, if_true, true_and, halfOf_withHalf]
  · simp only [hw, if_false, false_and]

/-- Settles O2, from what a half reads as after a half is replaced. -/
theorem registerHalves : Obligations.RegisterHalves := by
  unfold Obligations.RegisterHalves
  refine ⟨fun s => ?_, reg8_setReg8, fun s r q v hq => ?_⟩
  · exact ⟨(mkWord_halves _).symm, (mkWord_halves _).symm, (mkWord_halves _).symm, (mkWord_halves _).symm⟩
  · rw [reg16_setReg8, if_neg hq]

/-! FLAGS as a word (10 R120, R121). -/

theorem bitNat_eq_toNat (b : Bool) : bitNat b = b.toNat := by cases b <;> rfl

/-- The sum that forms the image has no carries, so each flag and each reserved bit is the bit at its own place. -/
theorem image_eq_bits (f : Flags) : f.image = BitVec.ofBoolListLE
    [f.cf, true, f.pf, false, f.af, false, f.zf, f.sf, f.tf, f.ifl, f.df, f.ovf, true, true, true, true] := by
  refine .trans (congrArg (BitVec.ofNat 16) ?_) ((BitVec.ofNat_toNat 16 _).trans (BitVec.setWidth_eq _))
  simp only [BitVec.ofBoolListLE, BitVec.toNat_concat, BitVec.toNat_of_zero_length, List.length_nil, bitNat_eq_toNat,
    Bool.toNat_true, Bool.toNat_false]
  omega

theorem flagsOfWord_image (f : Flags) : flagsOfWord f.image = f := by
  simp [flagsOfWord, image_eq_bits, BitVec.ofBoolListLE]

/-- Two words with the same sixteen bits are equal; the places stand as literals, so that masks and bit lists compute there. -/
theorem word_eq_of_bits {x y : Word} (h : ∀ i ∈ [0, 1, 2, 3, 4, 5, 6, 7, 8, 9, 10, 11, 12, 13, 14, 15],
    x.getLsbD i = y.getLsbD i) : x = y :=
  BitVec.eq_of_getLsbD_eq fun i hi => h i (List.mem_range.2 hi)

theorem image_flagsOfWord (w : Word) : (flagsOfWord w).image = (w &&& 0x0FD5) ||| 0xF002 := by
  apply word_eq_of_bits
  rw [image_eq_bits]
  simp [flagsOfWord, BitVec.ofBoolListLE]

theorem image_setLow (f : Flags) (b : Byte) :
    (f.setLow b).image = (f.image &&& 0xFF00) ||| ((b &&& 0xD5) ||| 0x02).setWidth 16 := by
  apply word_eq_of_bits
  rw [image_eq_bits, image_eq_bits]
  simp [Flags.setLow, BitVec.ofBoolListLE]

/-- Settles O3, bit by bit of the image. -/
theorem flagsImage : Obligations.FlagsImage := by
  unfold Obligations.FlagsImage
  exact ⟨image_flagsOfWord, flagsOfWord_image, image_setLow⟩

/-! The reset values (10 R150, 70 R1507). -/

theorem reset_written (r : Reg16) : State.reset.cpu.written.get r = false := by
  cases r <;> rfl

theorem reset_pit_idle (i : BitVec 2) :
    (State.reset.dev.pit.get i).programmed = false ∧ (State.reset.dev.pit.get i).counting = false := by
  unfold Pit.get
  split <;> exact ⟨rfl, rfl⟩

theorem reset_dma_get (c : BitVec 2) : State.reset.dev.dma.get c = DmaChannel.reset := by
  unfold Dma.get
  split <;> rfl

/-- Settles O1: the fields by evaluation, the registers, counters and channels by their numbers. -/
theorem resetValues : Obligations.ResetValues := by
  unfold Obligations.ResetValues
  have hdma : ∀ c, (State.reset.dev.dma.get c).mask = true ∧ (State.reset.dev.dma.get c).req = false ∧
      (State.reset.dev.dma.get c).tc = false := fun c => by
    rw [reset_dma_get]
    exact ⟨rfl, rfl, rfl⟩
  -- the CPU
  refine ⟨rfl, rfl, rfl, rfl, rfl, rfl, rfl, reset_written, rfl, rfl, rfl, rfl, rfl, rfl, rfl, rfl, rfl, rfl, rfl, ?_⟩
  -- the BIU, the history and the marks
  refine ⟨rfl, rfl, rfl, rfl, rfl, rfl, rfl, rfl, rfl, rfl, ?_⟩
  -- the devices
  exact ⟨rfl, rfl, rfl, rfl, reset_pit_idle, rfl, rfl, rfl, hdma, rfl, rfl, rfl, rfl, rfl, rfl, rfl, rfl, rfl⟩

end Sys2Proof.Machine

/-! Memory (20_memory): the bytes no step changes, the bytes a store changes, and the history of bus events. -/

namespace Sys2Proof.Machine

/-! The bytes that take a store (20 R200, R212, R213). -/

theorem writable_eq_true_iff (b : Bus) (a : LinAddr) : b.writable a = true ↔
    b.isDevice a = false ∧ b.isRomGranule a = false ∧ b.romFlag a = false ∧ a.toNat < b.convMemCap := by
  simp only [Bus.writable, Bool.and_eq_true, Bool.not_eq_true', decide_eq_true_eq, and_assoc]

theorem writable_eq_false_iff (b : Bus) (a : LinAddr) : b.writable a = false ↔
    b.isDevice a = true ∨ b.isRomGranule a = true ∨ b.romFlag a = true ∨ b.convMemCap ≤ a.toNat := by
  rw [← Bool.not_eq_true, writable_eq_true_iff]
  simp only [Classical.not_and_iff_not_or_not, Bool.not_eq_false, Nat.not_lt]

/-! What a machine step keeps: its CPU step and what follows it (31 R500). -/

theorem step_keeps {s t : State} (h : step s = .next t) : Keeps s t := by
  unfold step at h
  split at h
  case h_1 u hu =>
    cases h
    exact (cpuStep_keeps s u hu).trans (afterCpuStep_keeps u)
  case h_2 => cases h
  case h_3 => cases h

/-- Settles O50: a step changes the bus by stores only, and no store reaches such a byte. -/
theorem fixedBytesKept : Obligations.FixedBytesKept := by
  unfold Obligations.FixedBytesKept
  intro s t h
  have k := step_keeps h
  obtain ⟨hrom, hmmio, hcap, _⟩ := k.bus.routes
  exact ⟨fun a ha => k.bus.fixed a ((writable_eq_false_iff _ a).2 ha), hrom, hmmio, hcap, k.params, k.fault⟩

/-! Stores (20 R212, R220). -/

theorem store_of_not_writable {b : Bus} {a : LinAddr} (h : b.writable a = false) (v : Byte) : b.store a v = b := by
  simp [Bus.store, h]

theorem store_byte_of_writable {b : Bus} (hb : Memory.wf b.mem = true) {a : LinAddr} (h : b.writable a = true) (v : Byte)
    (x : LinAddr) : (b.store a v).byte x = if x = a then v else b.byte x := by
  by_cases hx : x = a
  · rw [hx, if_pos rfl, store_byte_same b hb, if_pos h]
  · rw [if_neg hx, store_byte_other b a v x hx]

/-- The next offset is 1 above or, wrapped, 65535 below: neither is a multiple of 2^20 (20 R203, R220). -/
theorem lin_ne_lin_succ (base off : Word) : lin base off ≠ lin base (off + 1) := by
  intro h
  have e := congrArg BitVec.toNat h
  simp only [lin, BitVec.toNat_ofNat, BitVec.toNat_add, show (1 : Word).toNat = 1 from rfl] at e
  omega

theorem storeWord_byte_of_writable {b : Bus} (hb : Memory.wf b.mem = true) {base off : Word}
    (h : ∀ a ∈ wordCells base off, b.writable a = true) (w : Word) (x : LinAddr) : (b.storeWord base off w).byte x =
      if x = lin base off then loByte w else if x = lin base (off + 1) then hiByte w else b.byte x := by
  have hlo : b.writable (lin base off) = true := h _ (by simp [wordCells])
  have hhi : (b.store (lin base off) (loByte w)).writable (lin base (off + 1)) = true := by
    rw [store_writable]
    exact h _ (by simp [wordCells])
  rw [Bus.storeWord, store_byte_of_writable (store_wf b hb _ _) hhi, store_byte_of_writable hb hlo]
  by_cases hx : x = lin base off
  · rw [if_pos hx, if_pos hx, if_neg (hx ▸ lin_ne_lin_succ base off)]
  · rw [if_neg hx, if_neg hx]

/-- MOV of a byte register to memory stores it at the operand's address (40 R601). -/
theorem movEbGb_mem_bus (m : Mem) (g : Reg8) (s : State) : ∃ t, exec (.movEbGb (.mem m) g) s = .next t ∧
    t.bus = s.bus.store (lin (s.seg (effSeg m s)) (effAddr m s)) (s.reg8 g) :=
  ⟨_, rfl, (writeLoc8_effect (.mem m) (s.reg8 g) s s rfl rfl).2.1⟩

/-- Settles O51, from what one store leaves at every byte. -/
theorem storedBytes : Obligations.StoredBytes := by
  unfold Obligations.StoredBytes
  intro b hb
  refine ⟨fun a v hd hg hf hc => ?_, fun a v h => ?_, fun base off w h => storeWord_byte_of_writable hb h w,
    fun s m g hs hw => ?_⟩
  · have h : b.writable a = true := (writable_eq_true_iff b a).2 ⟨hd, hg, hf, hc⟩
    exact ⟨h, store_byte_of_writable hb h v⟩
  · have h' : b.writable a = false := (writable_eq_false_iff b a).2 h
    exact ⟨h', store_of_not_writable h' v⟩
  · obtain ⟨t, ht, hbus⟩ := movEbGb_mem_bus m g s
    refine ⟨t, ht, ?_⟩
    rw [hbus, hs, store_byte_of_writable hb hw, if_pos rfl]

/-! Registers, transfers and strings, where the history needs them: what is read after a write, what `enter` pushes. -/

@[simp] theorem reg16_setReg16_same (s : State) (r : Reg16) (v : Word) : (s.setReg16 r v).reg16 r = v :=
  RegFile.get_set_same _ _ _

@[simp] theorem jumpFar_cpu (sel off : Word) (s : State) : (jumpFar sel off s).cpu = (s.cpu.putSeg .cs sel).putIp off :=
  (jumpFar_transfer sel off s).1

@[simp] theorem jumpFar_seg_cs (sel off : Word) (s : State) : (jumpFar sel off s).seg .cs = sel := by
  simp [State.seg]

/-- The state `enter` reads its vector from: FLAGS, CS and the return offset pushed, IF and TF cleared. -/
def entryPushed (ret : Word) (s : State) : State :=
  push ret (push (s.seg .cs) ((push s.cpu.flags.image (suspendFetch s)).mapFlags fun f => { f with ifl := false, tf := false }))

theorem enter_eq_jumpFar (n : Byte) (ret : Word) (s : State) : enter n ret s =
    let o := vectorRead (4 * zext16 n) (entryPushed ret s)
    let sel := vectorRead (4 * zext16 n + 2) o.2
    jumpFar sel.1 o.1 sel.2 := by
  have hcs : ((push s.cpu.flags.image (suspendFetch s)).mapFlags fun f => { f with ifl := false, tf := false }).seg .cs =
      s.seg .cs := by simp [State.seg]
  rw [entryPushed, ← hcs]
  rfl

theorem movsw_once {s : State} (h : s.cpu.pfx.rep = none) :
    exec .movsw s = .next (stringIteration .movs true s.cpu.pfx.segOverride s) := by
  show Host.Outcome.next (stringInstr .movs true s) = _
  rw [stringInstr, h]

/-! Offsets inside a run of words. -/

theorem sub_two_one (x : Word) : x - 2 + 1 = x - 1 := by bv_omega

theorem sub_four_one (x : Word) : x - 4 + 1 = x - 3 := by bv_omega

theorem sub_six_one (x : Word) : x - 6 + 1 = x - 5 := by bv_omega

theorem add_two_one (x : Word) : x + 2 + 1 = x + 3 := by bv_omega

theorem add_four_one (x : Word) : x + 4 + 1 = x + 5 := by bv_omega

/-! A code fetch run to its end (21 R302, R323, R331). -/

theorem finishCycle_data {c : BusCycle} (h : c.tstate = .t3) : (finishCycle c).data = c.incoming.getD c.data := by
  simp only [finishCycle, clocksToT4, h]
  rw [Nat.add_comm, ticks_data c.waits c (.inl h) rfl]

theorem settle_of_t1 {s : State} (h : s.biu.cycle.tstate = .t1) : s.settle = (s.clock .idle none).settle := by
  have h2 : (s.clock .idle none).biu.cycle.tstate = .t2 := by rw [clock_t1 _ _ _ h]; rfl
  simp only [State.settle, State.toData, h, h2]

/-- From T2 on, a code fetch records its byte and puts it in the queue. -/
theorem settle_of_fetchAtT2 {s : State} {a : LinAddr} (h : s.biu.cycle.fetchAtT2 = true) (hf : s.biu.fetching = some a) :
    ∃ v, s.settle.history = .codeFetch s.biu.cycle.addr v :: s.history ∧
      s.settle.biu.queue = s.biu.queue ++ [{ byte := v, addr := a }] := by
  have h2 : s.biu.cycle.tstate = .t2 := by
    simp only [BusCycle.fetchAtT2, Bool.and_eq_true, beq_iff_eq] at h
    exact h.1
  have hd : s.toData = (fetchData s).mapBiu (Biu.clock .idle none) := by
    simp only [State.toData, h2, State.clock, h, if_true]
  refine ⟨(dispatchRead s.biu.cycle.addr s).1.value, ?_, ?_⟩
  · simp [State.settle, hd, fetchData_history]
  · simp [State.settle, hd, Biu.clock, tickWith, hf, finishCycle_data, tick, h2]

/-- A code fetch launched on a free bus stands in T1 (21 R301, R308). -/
theorem startFetch_t1 {s : State} (h : s.biu.cycle.tstate = .ti ∨ s.biu.cycle.tstate = .t4) :
    (startFetch s).biu.cycle.tstate = .t1 ∧ (startFetch s).biu.cycle.busState = .codeFetch ∧
      (startFetch s).biu.cycle.addr = lin s.cpu.segs.cs s.biu.pfp := by
  rcases h with h | h <;> simp [tickWith, tick, h, nextCycle, startCycle]

theorem startFetch_settle {s : State} (h : s.biu.cycle.tstate = .ti ∨ s.biu.cycle.tstate = .t4) :
    ∃ v, (startFetch s).settle.history = .codeFetch (lin s.cpu.segs.cs s.biu.pfp) v :: s.history ∧
      (startFetch s).settle.biu.queue = s.biu.queue ++ [{ byte := v, addr := lin s.cpu.segs.cs s.biu.pfp }] := by
  obtain ⟨h1, hb, ha⟩ := startFetch_t1 h
  rw [settle_of_t1 h1, clock_t1 _ _ _ h1, ← ha]
  exact settle_of_fetchAtT2 (by simp only [BusCycle.fetchAtT2, mapBiu_biu, hb]; rfl) (congrArg some ha.symm)

end Sys2Proof.Machine

/-! The accesses that each operation adds to the history (20 R241), beside the code fetches of the BIU's turns. -/

namespace Sys2Proof.Claims

open Sys2Proof.Machine

/-! How additions to the history compose (20 R241). -/

theorem Adds.of_history {s t : State} (h : t.history = s.history) : Adds [] s t := by
  rw [Adds, h, List.nil_append]

theorem Adds.trans {s t u : State} {k l : List BusEvent} (h : Adds k s t) (j : Adds l t u) : Adds (l ++ k) s u := by
  rw [Adds, j, h, List.append_assoc]

/-- What adds no access may follow. -/
theorem Adds.quiet {s t u : State} {l : List BusEvent} (h : Adds l s t) (j : Adds [] t u) : Adds l s u := h.trans j

theorem record_adds {e : BusEvent} (h : isAccess e = true) (s : State) : Adds [e] s (s.record e) :=
  List.filter_cons_of_pos h

theorem setReg16_adds (r : Reg16) (v : Word) (s : State) : Adds [] s (s.setReg16 r v) := .of_history rfl

theorem setFlags_adds (f : Flags) (s : State) : Adds [] s (s.setFlags f) := .of_history rfl

theorem mapFlags_adds (g : Flags → Flags) (s : State) : Adds [] s (s.mapFlags g) := .of_history rfl

theorem setSeg_adds (r : Sreg) (v : Word) (s : State) : Adds [] s (s.setSeg r v) := .of_history rfl

theorem mapPic_adds (f : Pic → Pic) (s : State) : Adds [] s (s.mapPic f) := .of_history rfl

theorem drawByte_adds (s : State) : Adds [] s (drawByte s).2 := .of_history rfl

/-! The clocks of the BIU add code fetches only (21 R330, R331). -/

theorem fetchData_adds (s : State) : Adds [] s (fetchData s) := by
  rw [Adds, fetchData_history]
  rfl

theorem clock_adds (op : QueueOp) (v : Option Byte) (s : State) : Adds [] s (s.clock op v) := by
  unfold State.clock
  split
  · exact fetchData_adds s
  · exact .of_history rfl

theorem toData_adds (s : State) : Adds [] s s.toData := by
  unfold State.toData
  split
  · exact (clock_adds ..).trans (clock_adds ..)
  · exact clock_adds ..
  all_goals exact .of_history rfl

theorem settle_adds (s : State) : Adds [] s s.settle := toData_adds s

theorem openCycle_adds (r : BusRequest) (s : State) : Adds [] s (s.openCycle r) := settle_adds s

theorem beginCycle_adds (r : BusRequest) (s : State) : Adds [] s (s.beginCycle r) := settle_adds s

theorem euClock_adds (s : State) (op : QueueOp) (v : Option Byte) : Adds [] s (euClock s op v) := by
  unfold euClock
  split
  · exact .of_history rfl
  · exact clock_adds ..

theorem euClocks_adds (n : Nat) (s : State) : Adds [] s (euClocks n s) := by
  induction n generalizing s with
  | zero => exact .of_history rfl
  | succ n ih => exact (euClock_adds s .idle none).trans (ih _)

theorem biuTurn_adds (s : State) : Adds [] s (biuTurn s) :=
  (Adds.of_history (takeEuClocks_history s)).trans (euClocks_adds _ _)

theorem jumpFar_adds (sel off : Word) (s : State) : Adds [] s (jumpFar sel off s) := clock_adds .flush none _

/-- The clocks after a write's T1 add what its data phase does. -/
theorem carryWrite_adds {data : QueueOp → State → State} {l : List BusEvent} (h : ∀ u, Adds l u (data .idle u)) (s : State) :
    Adds l s (carryWrite data s) := by
  have k := ((Adds.of_history (takeEuClocks_history s)).trans (clock_adds .idle none _)).trans (h _)
  rw [List.append_nil, List.append_nil] at k
  exact k.trans (euClocks_adds _ _)

/-! The EU's accesses of one byte (20 R210, R212, R230). -/

theorem memRead_adds (access : AccessType) (a : LinAddr) (s : State) :
    Adds [.memRead access a (memRead access a s).1] s (memRead access a s).2 :=
  ((openCycle_adds _ s).trans (.of_history (dispatchRead_history a _))).trans (record_adds rfl (State.holdData _ _ _))

theorem dataWrite_adds (access : AccessType) (a : LinAddr) (v : Byte) (op : QueueOp) (s : State) :
    Adds [.memWrite access a v] s (dataWrite access a v op s) := by
  rw [Adds, dataWrite_history]
  rfl

theorem readByteAt_adds (access : AccessType) (base off : Word) (s : State) :
    Adds [.memRead access (lin base off) (readByteAt access base off s).1] s (readByteAt access base off s).2 :=
  ((biuTurn_adds s).trans (memRead_adds access (lin base off) _)).trans (biuTurn_adds _)

theorem writeByteAt_adds (access : AccessType) (base off : Word) (v : Byte) (s : State) :
    Adds [.memWrite access (lin base off) v] s (writeByteAt access base off v s) :=
  ((biuTurn_adds s).trans (beginCycle_adds _ _)).trans (carryWrite_adds (dataWrite_adds access (lin base off) v .idle) _)

theorem ioReadByte_adds (p : Word) (s : State) : Adds [.ioRead p (ioReadByte p s).1] s (ioReadByte p s).2 :=
  ((((biuTurn_adds s).trans (openCycle_adds _ _)).trans (.of_history (portRead_history p _))).trans
    (record_adds rfl (State.holdData _ _ _))).trans (biuTurn_adds _)

theorem portData_adds (p : Word) (v : Byte) (op : QueueOp) (s : State) : Adds [.ioWrite p v] s (portData p v op s) := by
  obtain ⟨_, _, _, _, _, hwaits⟩ := portWriteWaits_fields p s
  obtain ⟨_, _, _, _, _, _, hwrite⟩ := portWrite_fields p v
    (((portWriteWaits p s).2.writeData op (portWriteWaits p s).1).record (.ioWrite p v))
  exact ((Adds.of_history hwaits).trans (record_adds rfl (State.writeData _ _ _))).trans (.of_history hwrite)

theorem ioWriteByte_adds (p : Word) (v : Byte) (s : State) : Adds [.ioWrite p v] s (ioWriteByte p v s) :=
  ((biuTurn_adds s).trans (beginCycle_adds _ _)).trans (carryWrite_adds (portData_adds p v .idle) _)

/-! Accesses of words, low byte first (20 R220, R222). -/

/-- The events of a word v read at an offset of a segment base, newest first. -/
def wordReads (access : AccessType) (base off v : Word) : List BusEvent :=
  [.memRead access (lin base (off + 1)) (hiByte v), .memRead access (lin base off) (loByte v)]

/-- The events of a word v written there. -/
def wordWrites (access : AccessType) (base off v : Word) : List BusEvent :=
  [.memWrite access (lin base (off + 1)) (hiByte v), .memWrite access (lin base off) (loByte v)]

theorem readWordAt_adds (access : AccessType) (base off : Word) (s : State) :
    Adds (wordReads access base off (readWordAt access base off s).1) s (readWordAt access base off s).2 := by
  simpa [readWordAt, wordReads] using (readByteAt_adds access base off s).trans (readByteAt_adds access base (off + 1) _)

theorem writeWordAt_adds (access : AccessType) (base off v : Word) (s : State) :
    Adds (wordWrites access base off v) s (writeWordAt access base off v s) :=
  (writeByteAt_adds access base off (loByte v) s).trans (writeByteAt_adds access base (off + 1) (hiByte v) _)

theorem ioReadWord_adds (p : Word) (s : State) :
    Adds [.ioRead (p + 1) (hiByte (ioReadWord p s).1), .ioRead p (loByte (ioReadWord p s).1)] s (ioReadWord p s).2 := by
  simpa [ioReadWord] using (ioReadByte_adds p s).trans (ioReadByte_adds (p + 1) _)

theorem ioWriteWord_adds (p v : Word) (s : State) :
    Adds [.ioWrite (p + 1) (hiByte v), .ioWrite p (loByte v)] s (ioWriteWord p v s) :=
  (ioWriteByte_adds p (loByte v) s).trans (ioWriteByte_adds (p + 1) (hiByte v) _)

/-! The stack (00 R12), interrupt entry and return (60 R1220, 44 R1021), the acknowledge (60 R1233). -/

theorem push_adds (v : Word) (s : State) : Adds (wordWrites .stack (s.seg .ss) (s.reg16 .sp - 2) v) s (push v s) :=
  (setReg16_adds .sp (s.reg16 .sp - 2) s).trans (writeWordAt_adds .stack (s.seg .ss) (s.reg16 .sp - 2) v _)

theorem pop_adds (s : State) : Adds (wordReads .stack (s.seg .ss) (s.reg16 .sp) (pop s).1) s (pop s).2 := by
  simp only [pop, segRead16]
  exact (readWordAt_adds .stack (s.seg .ss) (s.reg16 .sp) s).quiet (setReg16_adds _ _ _)

/-- Three words pushed, the flags changed after the first. -/
theorem threePushes_adds (a b c : Word) (g : Flags → Flags) (s : State) :
    Adds (wordWrites .stack (s.seg .ss) (s.reg16 .sp - 6) c ++ wordWrites .stack (s.seg .ss) (s.reg16 .sp - 4) b ++
      wordWrites .stack (s.seg .ss) (s.reg16 .sp - 2) a) s (push c (push b ((push a s).mapFlags g))) := by
  have h := (push_adds a s).quiet (mapFlags_adds g _)
  simpa [State.reg16, State.seg, sub_two_two, sub_four_two] using (h.trans (push_adds b _)).trans (push_adds c _)

theorem threePops_adds (s : State) :
    Adds (wordReads .stack (s.seg .ss) (s.reg16 .sp + 4) (pop (pop (pop s).2).2).1 ++
      wordReads .stack (s.seg .ss) (s.reg16 .sp + 2) (pop (pop s).2).1 ++
      wordReads .stack (s.seg .ss) (s.reg16 .sp) (pop s).1) s (pop (pop (pop s).2).2).2 := by
  simpa [State.reg16, State.seg, add_two_two] using ((pop_adds s).trans (pop_adds _)).trans (pop_adds _)

theorem entryPushed_adds (ret : Word) (s : State) :
    Adds (wordWrites .stack (s.seg .ss) (s.reg16 .sp - 6) ret ++ wordWrites .stack (s.seg .ss) (s.reg16 .sp - 4) (s.seg .cs) ++
      wordWrites .stack (s.seg .ss) (s.reg16 .sp - 2) s.cpu.flags.image) s (entryPushed ret s) :=
  threePushes_adds s.cpu.flags.image (s.seg .cs) ret _ (suspendFetch s)

theorem vectorRead_adds (off : Word) (s : State) : Adds (wordReads .code 0 off (vectorRead off s).1) s (vectorRead off s).2 :=
  readWordAt_adds .code 0 off s

/-- `enter(n, ret)`: three words pushed, then the two words of the vector, which CS:IP takes. -/
theorem enter_adds (n : Byte) (ret : Word) (s : State) :
    Adds (wordReads .code 0 (4 * zext16 n + 2) ((enter n ret s).seg .cs) ++
      (wordReads .code 0 (4 * zext16 n) (enter n ret s).cpu.ip ++
        (wordWrites .stack (s.seg .ss) (s.reg16 .sp - 6) ret ++ wordWrites .stack (s.seg .ss) (s.reg16 .sp - 4) (s.seg .cs) ++
          wordWrites .stack (s.seg .ss) (s.reg16 .sp - 2) s.cpu.flags.image))) s (enter n ret s) := by
  have hp := entryPushed_adds ret s
  rw [enter_eq_jumpFar]
  generalize entryPushed ret s = t at hp ⊢
  simp only [jumpFar_seg_cs, jumpFar_cpu, putIp_ip]
  exact ((hp.trans (vectorRead_adds _ t)).trans (vectorRead_adds _ _)).quiet (jumpFar_adds _ _ _)

/-- The return from an interrupt: the words that IP, CS and FLAGS take. -/
theorem interruptReturn_adds (s : State) : ∃ f, (interruptReturn s).cpu.flags = flagsOfWord f ∧
    Adds (wordReads .stack (s.seg .ss) (s.reg16 .sp + 4) f ++
      wordReads .stack (s.seg .ss) (s.reg16 .sp + 2) ((interruptReturn s).seg .cs) ++
      wordReads .stack (s.seg .ss) (s.reg16 .sp) (interruptReturn s).cpu.ip) s (interruptReturn s) := by
  have hp := threePops_adds (suspendFetch s)
  simp only [interruptReturn, jumpFar_seg_cs, jumpFar_cpu, putIp_ip, putIp_flags, putSeg_flags, setFlags_cpu, putFlags_flags]
  exact ⟨_, rfl, hp.quiet ((setFlags_adds _ _).quiet (jumpFar_adds _ _ _))⟩

/-- An INTA cycle and its event. -/
theorem intaCycle_adds {e : BusEvent} (h : isAccess e = true) (v : Byte) (s : State) : Adds [e] s ((intaCycle v s).record e) :=
  (openCycle_adds { kind := .inta, access := .code, addr := (drawAddr s).1, data := none } (drawAddr s).2).trans
    (record_adds h (intaCycle v s))

theorem acknowledge_adds {v : Byte} {s t : State} (h : acknowledge s = some (v, t)) :
    Adds [.intaVector v, .intaFirst] s t := by
  simp only [acknowledge] at h
  split at h
  · cases h
  · cases h
    exact ((((biuTurn_adds s).trans (drawByte_adds _)).trans (intaCycle_adds rfl _ _)).trans (intaCycle_adds rfl _ _)).quiet
      ((mapPic_adds _ _).quiet (biuTurn_adds _))

/-! The instructions of the statement, each with its accesses in order. -/

theorem loadReg16_mem_adds (g : Reg16) (m : Mem) (s : State) :
    Adds (wordReads (accessOf (effSeg m s)) (s.seg (effSeg m s)) (effAddr m s) ((loadReg16 g (.mem m) s).reg16 g)) s
      (loadReg16 g (.mem m) s) := by
  rw [loadReg16, reg16_setReg16_same]
  exact (readWordAt_adds (accessOf (effSeg m s)) (s.seg (effSeg m s)) (effAddr m s) s).quiet (setReg16_adds _ _ _)

theorem writeRM16_mem_adds (m : Mem) (v : Word) (s : State) :
    Adds (wordWrites (accessOf (effSeg m s)) (s.seg (effSeg m s)) (effAddr m s) v) s (writeRM16 (.mem m) v s) :=
  writeWordAt_adds _ _ _ v s

/-- The sum is written where the word was read. -/
theorem addRM16_mem_adds (m : Mem) (b : Word) (s : State) : ∃ w,
    Adds (wordWrites (accessOf (effSeg m s)) (s.seg (effSeg m s)) (effAddr m s) (w + b) ++
      wordReads (accessOf (effSeg m s)) (s.seg (effSeg m s)) (effAddr m s) w) s (aluRM16 .add (.mem m) b s) := by
  have hseg (g : Flags → Flags) (u : State) (h : u.cpu = s.cpu) : (u.mapFlags g).seg (effSeg m s) = s.seg (effSeg m s) := by
    simp [State.seg, h]
  have hr := readWordAt_adds (accessOf (effSeg m s)) (s.seg (effSeg m s)) (effAddr m s) s
  refine ⟨(readWordAt (accessOf (effSeg m s)) (s.seg (effSeg m s)) (effAddr m s) s).1, ?_⟩
  simp only [aluRM16, alu, aluResult, aluFlags, addResult_false, locate16, readLoc16, segRead16, writeLoc16, segWrite16,
    reduceCtorEq, if_false, hseg _ _ (readWordAt_cpu _ _ _ _)]
  exact (hr.quiet (mapFlags_adds _ _)).trans (writeWordAt_adds ..)

theorem readFarPtr_adds (m : Mem) (s : State) :
    Adds (wordReads (accessOf (effSeg m s)) (s.seg (effSeg m s)) (effAddr m s + 2) (readFarPtr m s).1.2 ++
      wordReads (accessOf (effSeg m s)) (s.seg (effSeg m s)) (effAddr m s) (readFarPtr m s).1.1) s (readFarPtr m s).2 := by
  have h2 := readWordAt_adds (accessOf (effSeg m s)) (s.seg (effSeg m s)) (effAddr m s + 2)
    (segRead16 (effSeg m s) (effAddr m s) s).2
  have hseg : (segRead16 (effSeg m s) (effAddr m s) s).2.seg (effSeg m s) = s.seg (effSeg m s) :=
    seg_of_cpu (readWordAt_cpu ..) _
  simp only [readFarPtr]
  rw [segRead16, hseg]
  exact (readWordAt_adds _ _ _ s).trans h2

theorem loadFarPtr_ds_adds (g : Reg16) (m : Mem) (s : State) : let t := loadFarPtr .ds g m s
    Adds (wordReads (accessOf (effSeg m s)) (s.seg (effSeg m s)) (effAddr m s + 2) (t.seg .ds) ++
      wordReads (accessOf (effSeg m s)) (s.seg (effSeg m s)) (effAddr m s) (t.reg16 g)) s t := by
  have hg : (loadFarPtr .ds g m s).reg16 g = (readFarPtr m s).1.1 := RegFile.get_set_same _ _ _
  have hd : (loadFarPtr .ds g m s).seg .ds = (readFarPtr m s).1.2 := rfl
  dsimp only
  rw [hg, hd]
  exact ((readFarPtr_adds m s).quiet (setReg16_adds _ _ _)).quiet (setSeg_adds _ _ _)

theorem popReg_adds (r : Reg16) (s : State) :
    Adds (wordReads .stack (s.seg .ss) (s.reg16 .sp) ((popReg r s).reg16 r)) s (popReg r s) := by
  rw [popReg, reg16_setReg16_same]
  exact (pop_adds s).quiet (setReg16_adds _ _ _)

theorem inWord_adds (p : Word) (s : State) : let w := (inWord p s).reg16 .ax
    Adds [.ioRead (p + 1) (hiByte w), .ioRead p (loByte w)] s (inWord p s) := by
  rw [inWord, reg16_setReg16_same]
  exact (ioReadWord_adds p s).quiet (setReg16_adds _ _ _)

/-- One word moved: the element read from the source, then written at ES:DI. -/
theorem movsWord_adds (ovr : Option Sreg) (s : State) : ∃ w,
    Adds (wordWrites .altData (s.seg .es) (s.reg16 .di) w ++
      wordReads (accessOf (ovr.getD .ds)) (s.seg (ovr.getD .ds)) (s.reg16 .si) w) s (stringIteration .movs true ovr s) := by
  have hcpu (src : Sreg) : (readWordAt (accessOf src) (s.seg src) (s.reg16 .si) s).2.cpu = s.cpu := readWordAt_cpu ..
  refine ⟨(segRead16 (ovr.getD .ds) (s.reg16 .si) s).1, ?_⟩
  simp only [stringIteration, readElem, writeElem, if_true, segRead16, segWrite16, stepIndex, seg_of_cpu (hcpu _),
    reg16_of_cpu (hcpu _)]
  exact (((readWordAt_adds ..).trans (writeWordAt_adds ..)).quiet (setReg16_adds _ _ _)).quiet (setReg16_adds _ _ _)

/-- Settles O44: every step keeps the history as the end of its own (`Keeps`); each access adds its event, and the instructions
those of their accesses, in the order performed. -/
theorem eventHistory : Obligations.EventHistory := by
  unfold Obligations.EventHistory
  refine ⟨fun s t h => (step_keeps h).history, fun s h => ⟨rfl, startFetch_settle h⟩,
    fun s access base off p v => ⟨readByteAt_adds access base off s, writeByteAt_adds access base off v s, ioReadByte_adds p s,
      ioWriteByte_adds p v s⟩, fun s m g => ⟨?_, ?_, ?_, ?_⟩, fun s r => ⟨?_, ?_⟩, fun s h => ?_, fun s n => ⟨?_, ?_⟩,
    fun s => ⟨?_, ?_⟩, fun s t v h => acknowledge_adds h⟩
  -- MOV both ways, ADD to memory, LDS
  · exact ⟨_, _, _, rfl, (mkWord_halves _).symm, loadReg16_mem_adds g m s⟩
  · exact ⟨_, rfl, writeRM16_mem_adds m (s.reg16 g) s⟩
  · obtain ⟨w, h⟩ := addRM16_mem_adds m (s.reg16 g) s
    refine ⟨loByte w, hiByte w, _, rfl, ?_⟩
    rw [mkWord_halves]
    exact h
  · refine ⟨_, _, _, _, _, rfl, (mkWord_halves _).symm, (mkWord_halves _).symm, ?_⟩
    rw [← add_two_one]
    exact loadFarPtr_ds_adds g m s
  -- PUSH, POP
  · refine ⟨_, rfl, ?_⟩
    rw [← sub_two_one]
    exact push_adds _ s
  · exact ⟨_, _, _, rfl, (mkWord_halves _).symm, popReg_adds r s⟩
  -- MOVSW
  · obtain ⟨w, k⟩ := movsWord_adds s.cpu.pfx.segOverride s
    exact ⟨loByte w, hiByte w, _, movsw_once h, k⟩
  -- INT n, IRET
  · refine ⟨.code, _, _, _, _, _, rfl, (mkWord_halves _).symm, (mkWord_halves _).symm, ?_⟩
    rw [← sub_two_one, ← sub_four_one, ← sub_six_one, ← add_two_one]
    exact enter_adds n s.cpu.ip s
  · obtain ⟨f, hf, h⟩ := interruptReturn_adds s
    refine ⟨_, _, _, _, loByte f, hiByte f, _, rfl, (mkWord_halves _).symm, (mkWord_halves _).symm, ?_, ?_⟩
    · rw [mkWord_halves]
      exact hf
    · rw [← add_two_one, ← add_four_one]
      exact h
  -- IN AX and OUT AX, the port in DX and immediate
  · rintro i p (⟨rfl, rfl⟩ | ⟨b, rfl, rfl⟩) <;> exact ⟨_, _, _, rfl, (mkWord_halves _).symm, inWord_adds _ s⟩
  · rintro i p (⟨rfl, rfl⟩ | ⟨b, rfl, rfl⟩) <;> exact ⟨_, rfl, ioWriteWord_adds _ _ s⟩

end Sys2Proof.Claims

/-! The bus interface unit (21_bus_interface): the T-states a clock at a time, the command strobes, and the clocks of the EU's
reads and writes and of code fetches. -/

namespace Sys2Proof.Machine

/-! The T-state machine a clock at a time (21 R301, R302, R308). -/

theorem tick_idle {c : BusCycle} (h : c.tstate = .ti ∨ c.tstate = .t4) (hp : c.pending = none) :
    tick c = idleCycle { c with clock := c.clock + 1, queueOp := .idle, queueByte := none } := by
  rcases h with h | h <;> simp only [tick, h, nextCycle, hp]

theorem tick_start {c : BusCycle} {r : BusRequest} (h : c.tstate = .ti ∨ c.tstate = .t4) (hp : c.pending = some r) :
    tick c = startCycle r { c with clock := c.clock + 1, queueOp := .idle, queueByte := none } := by
  rcases h with h | h <;> simp only [tick, h, nextCycle, hp]

theorem tick_t1 {c : BusCycle} (h : c.tstate = .t1) :
    tick c = { c with tstate := .t2, clock := c.clock + 1, queueOp := .idle, queueByte := none } := by
  simp only [tick, h]

theorem tick_t2 {c : BusCycle} (h : c.tstate = .t2) :
    tick c = { c with tstate := .t3, clock := c.clock + 1, queueOp := .idle, queueByte := none } := by
  simp only [tick, h]

theorem tick_end {c : BusCycle} (h : c.tstate = .t3 ∨ c.tstate = .tw) (hw : c.waits = 0) :
    tick c = { c with tstate := .t4, data := c.incoming.getD c.data, incoming := none, clock := c.clock + 1, queueOp := .idle
                      queueByte := none } := by
  rcases h with h | h <;> simp only [tick, h, waitOrEnd, hw, if_true]

theorem tick_wait {c : BusCycle} {n : Nat} (h : c.tstate = .t3 ∨ c.tstate = .tw) (hw : c.waits = n + 1) :
    tick c = { c with tstate := .tw, waits := n, clock := c.clock + 1, queueOp := .idle, queueByte := none } := by
  rcases h with h | h <;> simp [tick, h, waitOrEnd, hw]

theorem nextCycle_record (c : BusCycle) : (nextCycle c).clock = c.clock ∧ (nextCycle c).queueOp = c.queueOp ∧
    (nextCycle c).queueByte = c.queueByte := by
  unfold nextCycle
  split <;> exact ⟨rfl, rfl, rfl⟩

theorem waitOrEnd_record (c : BusCycle) : (waitOrEnd c).clock = c.clock ∧ (waitOrEnd c).queueOp = c.queueOp ∧
    (waitOrEnd c).queueByte = c.queueByte := by
  unfold waitOrEnd
  split <;> exact ⟨rfl, rfl, rfl⟩

theorem waitOrEnd_latched (c : BusCycle) : (waitOrEnd c).busState = c.busState ∧ (waitOrEnd c).access = c.access ∧
    (waitOrEnd c).addr = c.addr := by
  unfold waitOrEnd
  split <;> exact ⟨rfl, rfl, rfl⟩

/-- A clock adds one to the count and shows no queue operation, in every T-state (21 R300, R324). -/
theorem tick_record (c : BusCycle) : (tick c).clock = c.clock + 1 ∧ (tick c).queueOp = .idle ∧ (tick c).queueByte = none := by
  unfold tick
  cases c.tstate with
  | ti => exact nextCycle_record _
  | t1 => exact ⟨rfl, rfl, rfl⟩
  | t2 => exact ⟨rfl, rfl, rfl⟩
  | t3 => exact waitOrEnd_record _
  | tw => exact waitOrEnd_record _
  | t4 => exact nextCycle_record _

/-- Bus state, access type and address stay through a cycle (21 R302). -/
theorem tick_latched {c : BusCycle} (hi : c.tstate ≠ .ti) (h4 : c.tstate ≠ .t4) :
    (tick c).busState = c.busState ∧ (tick c).access = c.access ∧ (tick c).addr = c.addr := by
  unfold tick
  cases h : c.tstate with
  | ti => exact absurd h hi
  | t1 => exact ⟨rfl, rfl, rfl⟩
  | t2 => exact ⟨rfl, rfl, rfl⟩
  | t3 => exact waitOrEnd_latched _
  | tw => exact waitOrEnd_latched _
  | t4 => exact absurd h h4

/-- A request on a free bus starts its cycle (21 R301, R308). -/
theorem beginCycle_of_free {c : BusCycle} (h : c.tstate = .ti ∨ c.tstate = .t4) (r : BusRequest) :
    beginCycle r c = startCycle r { c with clock := c.clock + 1, queueOp := .idle, queueByte := none } :=
  tick_start h rfl

/-- The clock out of T2 begins the data phase, with the byte to capture and the wait states asked for (21 R302, R303). -/
theorem dataPhase_of_t2 {c : BusCycle} (h : c.tstate = .t2) (v : Option Byte) (n : Nat) : dataPhase v n c =
    { c with tstate := .t3, incoming := v, waits := n, clock := c.clock + 1, queueOp := .idle, queueByte := none } :=
  tick_t2 h

/-! The command strobes (21 R306). -/

theorem strobes_iff (c : BusCycle) :
    let late := c.tstate = .t3 ∨ c.tstate = .tw
    let early := c.tstate = .t2 ∨ late
    ((strobes c).ale = true ↔ c.tstate = .t1 ∧ c.busState ≠ .passive) ∧
    ((strobes c).mrdc = true ↔ early ∧ (c.busState = .codeFetch ∨ c.busState = .memRead)) ∧
    ((strobes c).amwc = true ↔ early ∧ c.busState = .memWrite) ∧ ((strobes c).mwtc = true ↔ late ∧ c.busState = .memWrite) ∧
    ((strobes c).iorc = true ↔ early ∧ c.busState = .ioRead) ∧ ((strobes c).inta = true ↔ early ∧ c.busState = .inta) ∧
    ((strobes c).aiowc = true ↔ early ∧ c.busState = .ioWrite) ∧
    ((strobes c).iowc = true ↔ late ∧ c.busState = .ioWrite) := by
  simp only [strobes, Bool.and_eq_true, Bool.or_eq_true, beq_iff_eq, bne_iff_ne, or_assoc, and_self]

/-! A free bus (21 R308): there is no cycle to complete. -/

theorem finishCycle_of_free {c : BusCycle} (h : c.tstate = .ti ∨ c.tstate = .t4) : finishCycle c = c := by
  rcases h with h | h <;> simp only [finishCycle, clocksToT4, h, ticks]

theorem toData_of_free {s : State} (h : BusFree s) : s.toData = s := by
  rcases h with h | h <;> simp only [State.toData, h]

theorem toData_of_t3 {s : State} (h : s.biu.cycle.tstate = .t3) : s.toData = s := by
  simp only [State.toData, h]

theorem settle_cycle_of_free {s : State} (h : BusFree s) : s.settle.biu.cycle = s.biu.cycle := by
  rw [State.settle, toData_of_free h]
  exact finishCycle_of_free h

/-- From T3 the cycle completes in its wait states and one clock more (21 R303). -/
theorem settle_cycle_of_t3 {s : State} (h : s.biu.cycle.tstate = .t3) : s.settle.biu.cycle.tstate = .t4 ∧
    s.settle.biu.cycle.clock = s.biu.cycle.clock + (s.biu.cycle.waits + 1) := by
  have e : s.settle.biu.cycle = ticks (s.biu.cycle.waits + 1) s.biu.cycle := by
    rw [State.settle, toData_of_t3 h, Nat.add_comm]
    simp only [mapBiu_biu, land_cycle, finishCycle, clocksToT4, h]
  rw [e, ticks_data _ _ (.inl h) rfl]
  exact ⟨rfl, rfl⟩

/-! Wait states (21 R303): plain memory inserts none. -/

theorem dispatchRead_waits {a : LinAddr} {s : State} (h : s.bus.isDevice a = false) : (dispatchRead a s).1.waits = 0 := by
  simp [dispatchRead, h]

theorem writeWaits_memory {a : LinAddr} {s : State} (h : s.bus.isDevice a = false) : (writeWaits a s).1 = 0 := by
  simp [writeWaits, h]

/-! The EU's accesses (21 R302, R308, R309). -/

/-- The request of an EU read of memory. -/
def readRequest (access : AccessType) (a : LinAddr) : BusRequest :=
  { kind := .memRead, access := access, addr := a, data := none }

/-- A read holds the EU for the whole of its cycle. -/
theorem memRead_cycle {s : State} (h : BusFree s) (access : AccessType) (a : LinAddr) :
    let r := dispatchRead a (s.openCycle (readRequest access a))
    (memRead access a s).2.biu.cycle = { startCycle (readRequest access a) s.biu.cycle with
      tstate := .t4, data := r.1.value, clock := s.biu.cycle.clock + (4 + r.1.waits), queueOp := .idle, queueByte := none } := by
  dsimp only
  rw [← settle_cycle_of_free h]
  simp only [memRead, record_biu, holdData_biu, dispatchRead_biu]
  exact heldCycle_eq (readRequest access a) _ _ _ (settle_free s)

theorem memRead_of_free {s : State} (h : BusFree s) (access : AccessType) (a : LinAddr) : ∃ w,
    let r := memRead access a s
    let c := r.2.biu.cycle
    (s.bus.isDevice a = false → w = 0) ∧ c.clock = s.biu.cycle.clock + 4 + w ∧ c.tstate = .t4 ∧ c.busState = .memRead ∧
      c.access = access ∧ c.addr = a ∧ c.data = r.1 := by
  refine ⟨(dispatchRead a (s.openCycle (readRequest access a))).1.waits, fun hd => dispatchRead_waits (by simpa using hd), ?_⟩
  rw [memRead_cycle h]
  exact ⟨(Nat.add_assoc ..).symm, rfl, rfl, rfl, rfl, rfl⟩

/-- A flush in the clock out of T1 leads the cycle to T2 (21 R309, R324, R327; log 24). -/
theorem flushQueue_of_t1 {s : State} (h : s.biu.cycle.tstate = .t1) :
    (flushQueue s).biu.cycle.tstate = .t2 ∧ (flushQueue s).biu.cycle.busState = s.biu.cycle.busState := by
  rw [flushQueue, clock_t1 _ _ _ h]
  exact ⟨rfl, rfl⟩

/-- Two clocks after its T1 a write stands in T3, with what its T1 showed and the wait states of its address (21 R302, R303). -/
theorem dataWrite_of_t1 {s : State} (h : s.biu.cycle.tstate = .t1) (access : AccessType) (a : LinAddr) (v : Byte) :
    (dataWrite access a v .idle (s.clock .idle none)).biu.cycle = { s.biu.cycle with
      tstate := .t3, incoming := none, waits := (writeWaits a (s.clock .idle none)).1, clock := s.biu.cycle.clock + 2
      queueOp := .idle, queueByte := none } := by
  have h2 : (s.clock .idle none).biu.cycle.tstate = .t2 := by rw [clock_t1 _ _ _ h]; rfl
  rw [dataWrite_biu, dataPhase_of_t2 h2, clock_t1 _ _ _ h]
  rfl

theorem beginWrite_of_free {s : State} (h : BusFree s) (access : AccessType) (a : LinAddr) (v : Byte) :
    let t := beginWrite access a v s
    let b := t.biu.cycle
    b.tstate = .t1 ∧ b.busState = .memWrite ∧ b.access = access ∧ b.addr = a ∧ b.data = v ∧
      b.clock = s.biu.cycle.clock + 1 ∧ t.bus = s.bus := by
  obtain ⟨ht, hst, hacc, haddr, hdata, hclock⟩ := beginWrite_t1 access a v s
  rw [settle_cycle_of_free h] at hclock
  exact ⟨ht, hst, hacc, haddr, hdata, hclock, beginCycle_bus ..⟩

/-- The data phase of an EU write begun on a free bus, and its way to T4: four clocks and the wait states in all. -/
theorem dataWrite_of_free {s : State} (h : BusFree s) (access : AccessType) (a : LinAddr) (v : Byte) :
    let u := dataWrite access a v .idle ((takeEuClocks (beginWrite access a v s)).2.clock .idle none)
    let c := u.biu.cycle
    u.bus = s.bus.store a v ∧ (s.bus.isDevice a = false → c.waits = 0) ∧ c.clock = s.biu.cycle.clock + 3 ∧ c.tstate = .t3 ∧
      c.busState = .memWrite ∧ c.access = access ∧ c.addr = a ∧ c.data = v ∧ u.settle.biu.cycle.tstate = .t4 ∧
      u.settle.biu.cycle.clock = s.biu.cycle.clock + 4 + c.waits := by
  obtain ⟨ht, hst, hacc, haddr, hdata, hclock, hbus⟩ := beginWrite_of_free h access a v
  have hc := dataWrite_of_t1 (s := (takeEuClocks (beginWrite access a v s)).2) (by rw [takeEuClocks_biu]; exact ht) access a v
  obtain ⟨hend, hcount⟩ := settle_cycle_of_t3 (congrArg BusCycle.tstate hc)
  refine ⟨?_, fun hd => ?_, ?_⟩
  · rw [dataWrite_bus, clock_bus, takeEuClocks_bus, hbus]
  · rw [hc]
    exact writeWaits_memory (by rwa [clock_bus, takeEuClocks_bus, hbus])
  · simp only [hend, hcount, hc, takeEuClocks_biu, hst, hacc, haddr, hdata, hclock, true_and]
    omega

/-! The EU's own clocks on a free bus (21 R308, R323, R324). -/

theorem mayFetch_iff {s : State} (h : BusFree s) (hp : s.biu.cycle.pending = none) (hf : s.biu.fetching = none) :
    mayFetch s = true ↔ s.biu.queue.length < 4 ∧ s.biu.fetchSuspended = false := by
  have hfree : (s.biu.cycle.tstate == .ti || s.biu.cycle.tstate == .t4) = true := by
    rcases h with h | h <;> rw [h] <;> rfl
  simp only [mayFetch, hp, hf, hfree, Option.isNone_none, Bool.and_true, Bool.and_eq_true, decide_eq_true_eq, Bool.not_eq_true']
  exact Iff.rfl

/-- The request of a code fetch, of the byte at CS:PFP. -/
def fetchRequest (s : State) : BusRequest :=
  { kind := .codeFetch, access := .code, addr := lin s.cpu.segs.cs s.biu.pfp, data := none }

theorem startFetch_of_free {s : State} (h : BusFree s) (op : QueueOp) (v : Option Byte) :
    let c := (startFetch s op v).biu.cycle
    c.queueOp = op ∧ c.queueByte = v ∧ c.tstate = .t1 ∧ c.busState = .codeFetch ∧ c.access = .code ∧
      c.addr = lin s.cpu.segs.cs s.biu.pfp := by
  have e : (startFetch s op v).biu.cycle = { beginCycle (fetchRequest s) s.biu.cycle with queueOp := op, queueByte := v } := rfl
  rw [e, beginCycle_of_free h]
  exact ⟨rfl, rfl, rfl, rfl, rfl, rfl⟩

/-- With nothing pending the bus idles, and the queue stays. -/
theorem clock_of_free {s : State} (h : BusFree s) (hp : s.biu.cycle.pending = none) (op : QueueOp) (v : Option Byte) :
    let b := (s.clock op v).biu
    b.cycle.queueOp = op ∧ b.cycle.queueByte = v ∧ b.queue = s.biu.queue ∧ b.cycle.tstate = .ti ∧ b.cycle.busState = .passive := by
  have hd : s.biu.cycle.fetchAtT2 = false := by
    rcases h with h | h <;> simp only [BusCycle.fetchAtT2, h] <;> rfl
  have ht : (tick s.biu.cycle).tstate ≠ .t4 := by
    rw [tick_idle h hp]
    exact TState.noConfusion
  rcases clock_cases op v s.biu with ⟨_, e⟩ | ⟨k, _⟩
  · simp only [State.clock, hd, Bool.false_eq_true, if_false, mapBiu_biu, e, tickWith, tick_idle h hp, idleCycle, and_self]
  · exact absurd k ht

theorem euClock_of_free {s : State} (h : BusFree s) (hp : s.biu.cycle.pending = none) (hf : s.biu.fetching = none)
    (op : QueueOp) (v : Option Byte) :
    let room := s.biu.queue.length < 4 ∧ s.biu.fetchSuspended = false
    let d := (euClock s op v).biu
    let c := d.cycle
    c.queueOp = op ∧ c.queueByte = v ∧ d.queue = s.biu.queue ∧
      (room → c.tstate = .t1 ∧ c.busState = .codeFetch ∧ c.access = .code ∧ c.addr = lin s.cpu.segs.cs s.biu.pfp) ∧
      (¬ room → c.tstate = .ti ∧ c.busState = .passive) := by
  have hm := mayFetch_iff h hp hf
  dsimp only
  by_cases hr : s.biu.queue.length < 4 ∧ s.biu.fetchSuspended = false
  · rw [euClock, if_pos (hm.2 hr)]
    obtain ⟨hop, hv, hstart⟩ := startFetch_of_free h op v
    exact ⟨hop, hv, rfl, fun _ => hstart, fun hn => absurd hr hn⟩
  · rw [euClock, if_neg (mt hm.1 hr)]
    obtain ⟨hop, hv, hq, hidle⟩ := clock_of_free h hp op v
    exact ⟨hop, hv, hq, fun hr' => absurd hr' hr, fun _ => hidle⟩

/-- The byte taken has left its room in the clock that takes it (21 R323, R325; log 24). -/
theorem takeByte_of_free {s : State} {q : QueueByte} {qs : List QueueByte} (h : BusFree s) (hp : s.biu.cycle.pending = none)
    (hf : s.biu.fetching = none) (hs : s.biu.fetchSuspended = false) (hq : s.biu.queue = q :: qs) (hl : qs.length < 4)
    (op : QueueOp) :
    let t := takeByte op s
    let c := t.biu.cycle
    t.biu.queue = qs ∧ c.queueOp = op ∧ c.queueByte = some q.byte ∧ c.tstate = .t1 ∧ c.busState = .codeFetch ∧
      c.access = .code ∧ c.addr = lin s.cpu.segs.cs s.biu.pfp := by
  have hdrop : s.biu.queue.drop 1 = qs := by rw [hq]; rfl
  have hroom : (s.biu.queue.drop 1).length < 4 := by rw [hdrop]; exact hl
  obtain ⟨hop, hv, hqueue, hfetch, _⟩ := euClock_of_free (s := s.mapBiu fun b => { b with queue := b.queue.drop 1 }) h hp hf op
    (s.biu.queue.head?.map QueueByte.byte)
  exact ⟨hqueue.trans hdrop, hop, hv.trans (by rw [hq]; rfl), hfetch ⟨hroom, hs⟩⟩

/-- Settles O52: the T-state machine by its equation in each T-state, the strobes by theirs, and the EU's accesses and its own
clocks by what they do on a free bus. -/
theorem busCycles : Obligations.BusCycles := by
  unfold Obligations.BusCycles
  refine ⟨fun c => ?_, strobes_iff, rfl, rfl, rfl, fun s access a h => memRead_of_free h access a, fun s access a v h => ?_,
    fun s op v h hp hf => euClock_of_free h hp hf op v,
    fun s op q qs h hp hf hs hq hl => takeByte_of_free h hp hf hs hq hl op⟩
  · obtain ⟨hclock, hop, hbyte⟩ := tick_record c
    refine ⟨hclock, hop, hbyte, fun h => ⟨fun hp => ?_, fun r hp => ?_⟩, fun h => by rw [tick_t1 h],
      fun h => by rw [tick_t2 h], fun h => ⟨fun hw => ?_, fun n hw => ?_⟩, tick_latched⟩
    · rw [tick_idle h hp]
      exact ⟨rfl, rfl⟩
    · rw [tick_start h hp]
      exact ⟨rfl, rfl, rfl, rfl, rfl, fun v hv => by rw [startCycle, hv]; rfl⟩
    · rw [tick_end h hw]
      exact ⟨rfl, rfl⟩
    · rw [tick_wait h hw]
      exact ⟨rfl, rfl, rfl⟩
  · obtain ⟨ht, hst, hrest⟩ := beginWrite_of_free h access a v
    obtain ⟨hflush, hflushSt⟩ := flushQueue_of_t1 ht
    exact ⟨⟨ht, hst, hrest⟩, ⟨hflush, hflushSt.trans hst, flushQueue_queueOp _, flushQueue_queue _⟩, rfl,
      dataWrite_of_free h access a v⟩

end Sys2Proof.Machine

/-! Encoding (30_encoding): the round trip of decoder and encoder, the instruction record, effective addresses, prefixes, and
the rows that are refused. -/

namespace Sys2Proof

/-! Rows: what the bytes that `encode` writes for each operand template decode to (30 R403, R428). -/

theorem decode_ib {op : Byte} {f : Byte → Instr} (ht : templateOf op = .plain (.ib f)) (b : Byte) (rest : List Byte) :
    decode ([op, b] ++ rest) = .ok (f b, rest) := by
  simp only [List.cons_append, List.nil_append, decode, ht, Template.read, Tail.read]

theorem decode_iw {op : Byte} {f : Word → Instr} (ht : templateOf op = .plain (.iw f)) (w : Word) (rest : List Byte) :
    decode ((op :: wordBytes w) ++ rest) = .ok (f w, rest) := by
  simp only [List.cons_append, decode, ht, Template.read, read_iw]

theorem decode_ptr {op : Byte} {f : Word → Word → Instr} (ht : templateOf op = .ptr f) (off seg : Word) (rest : List Byte) :
    decode ((op :: wordBytes off ++ wordBytes seg) ++ rest) = .ok (f off seg, rest) := by
  simp only [List.cons_append, decode, ht, read_ptr]

section
variable {op : Byte} {reg : BitVec 3} {i : Instr} {fb : Byte → Instr} {fw : Word → Instr}

theorem decode_rm8 {f : BitVec 3 → RM8 → Tail} {e : RM8} (ht : templateOf op = .modrm8 f) (hf : f reg e = .done i)
    (h : e.wf = true) (rest : List Byte) : decode ((op :: rm8Bytes reg e) ++ rest) = .ok (i, rest) := by
  simp only [List.cons_append, decode, ht, read_modrm8 f reg e h, hf, Tail.read]

theorem decode_rm8_ib {f : BitVec 3 → RM8 → Tail} {e : RM8} (ht : templateOf op = .modrm8 f) (hf : f reg e = .ib fb)
    (h : e.wf = true) (b : Byte) (rest : List Byte) : decode ((op :: rm8Bytes reg e ++ [b]) ++ rest) = .ok (fb b, rest) := by
  simp only [List.cons_append, List.append_assoc, List.nil_append, decode, ht, read_modrm8 f reg e h, hf, Tail.read]

theorem decode_rm16 {f : BitVec 3 → RM16 → Tail} {e : RM16} (ht : templateOf op = .modrm16 f) (hf : f reg e = .done i)
    (h : e.wf = true) (rest : List Byte) : decode ((op :: rm16Bytes reg e) ++ rest) = .ok (i, rest) := by
  simp only [List.cons_append, decode, ht, read_modrm16 f reg e h, hf, Tail.read]

theorem decode_rm16_ib {f : BitVec 3 → RM16 → Tail} {e : RM16} (ht : templateOf op = .modrm16 f) (hf : f reg e = .ib fb)
    (h : e.wf = true) (b : Byte) (rest : List Byte) : decode ((op :: rm16Bytes reg e ++ [b]) ++ rest) = .ok (fb b, rest) := by
  simp only [List.cons_append, List.append_assoc, List.nil_append, decode, ht, read_modrm16 f reg e h, hf, Tail.read]

theorem decode_rm16_iw {f : BitVec 3 → RM16 → Tail} {e : RM16} (ht : templateOf op = .modrm16 f) (hf : f reg e = .iw fw)
    (h : e.wf = true) (w : Word) (rest : List Byte) :
    decode ((op :: rm16Bytes reg e ++ wordBytes w) ++ rest) = .ok (fw w, rest) := by
  simp only [List.cons_append, List.append_assoc, decode, ht, read_modrm16 f reg e h, hf, read_iw]

end

/-! Opcodes with an operand in their low bits (30 R430). -/

theorem templateOf_movR16Iw (r : Reg16) : templateOf (0xB8 + r.num.setWidth 8) = .plain (.iw (.movR16Iw r)) := by
  cases r <;> rfl

theorem templateOf_jccAlias (cc : BitVec 4) : templateOf (0x60 + cc.setWidth 8) = .plain (.ib (.jccAlias cc)) := by
  have hcc : cc ∈ [0, 1, 2, 3, 4, 5, 6, 7, 8, 9, 10, 11, 12, 13, 14, 15] := by revert cc; decide
  simp only [List.mem_cons, List.not_mem_nil, or_false] at hcc
  rcases hcc with rfl | rfl | rfl | rfl | rfl | rfl | rfl | rfl | rfl | rfl | rfl | rfl | rfl | rfl | rfl | rfl <;> rfl

theorem templateOf_esc (k : BitVec 3) : templateOf (0xD8 + k.setWidth 8) = .modrm16 fun g e => .done (.esc (k ++ g) e) := by
  have hk : k ∈ [0, 1, 2, 3, 4, 5, 6, 7] := by revert k; decide
  simp only [List.mem_cons, List.not_mem_nil, or_false] at hk
  rcases hk with rfl | rfl | rfl | rfl | rfl | rfl | rfl | rfl <;> rfl

theorem escCode_halves : ∀ code : BitVec 6, code.extractLsb' 3 3 ++ code.extractLsb' 0 3 = code := by decide

/-! The refused reg fields of 8F, C6, C7 and FE (30 R434, R436). -/

theorem group8F_refused {reg : BitVec 3} (h : reg ≠ 0) (e : RM16) : group8F reg e = .done (.pop8FRefused reg e) := by
  unfold group8F
  split
  · exact absurd (BitVec.eq_of_toNat_eq ‹_›) h
  · rfl

theorem groupC6_refused {reg : BitVec 3} (h : reg ≠ 0) (e : RM8) : groupC6 reg e = .ib (.movC6Refused reg e) := by
  unfold groupC6
  split
  · exact absurd (BitVec.eq_of_toNat_eq ‹_›) h
  · rfl

theorem groupC7_refused {reg : BitVec 3} (h : reg ≠ 0) (e : RM16) : groupC7 reg e = .iw (.movC7Refused reg e) := by
  unfold groupC7
  split
  · exact absurd (BitVec.eq_of_toNat_eq ‹_›) h
  · rfl

theorem groupFE_refused {reg : BitVec 3} (h : 2 ≤ reg.toNat) (e : RM8) : groupFE reg e = .done (.feRefused reg e) := by
  unfold groupFE
  split
  · omega
  · omega
  · rfl

/-! The round trip. -/

/-- 30 R400 to R440, row by row, grouped by what follows the opcode byte; the rows left to the last case are those whose bytes
are an opcode of their own and at most one immediate byte. -/
theorem decode_encode (i : Instr) (rest : List Byte) (h : i.wf = true) : decode (encode i ++ rest) = .ok (i, rest) := by
  cases i with
  | addEbGb e g | addGbEb g e | orEbGb e g | orGbEb g e | adcEbGb e g | adcGbEb g e | sbbEbGb e g | sbbGbEb g e
  | andEbGb e g | andGbEb g e | subEbGb e g | subGbEb g e | xorEbGb e g | xorGbEb g e | cmpEbGb e g | cmpGbEb g e
  | testEbGb e g | xchgEbGb e g | movEbGb e g | movGbEb g e => exact decode_rm8 rfl (by simp only [reg8Of_num]) h rest
  | addEvGv e g | addGvEv g e | orEvGv e g | orGvEv g e | adcEvGv e g | adcGvEv g e | sbbEvGv e g | sbbGvEv g e
  | andEvGv e g | andGvEv g e | subEvGv e g | subGvEv g e | xorEvGv e g | xorGvEv g e | cmpEvGv e g | cmpGvEv g e
  | testEvGv e g | xchgEvGv e g | movEvGv e g | movGvEv g e => exact decode_rm16 rfl (by simp only [reg16Of_num]) h rest
  | addAxIw i | orAxIw i | adcAxIw i | sbbAxIw i | andAxIw i | subAxIw i | xorAxIw i | cmpAxIw i | movAlMoffs off
  | movAxMoffs off | movMoffsAl off | movMoffsAx off | testAxIw i | retIwAlias i | retIw i | retfIwAlias i | retfIw i
  | callRel16 rel | jmpRel16 rel => exact decode_iw rfl _ rest
  | callPtr off seg | jmpPtr off seg => exact decode_ptr rfl _ _ rest
  | incR16 r | decR16 r | pushR16 r | popR16 r | movR8Ib r i => cases r <;> rfl
  | xchgAxR16 r =>
    cases r with
    | ax => cases h
    | cx | dx | bx | sp | bp | si | di => rfl
  | movR16Iw r i => exact decode_iw (templateOf_movR16Iw r) i rest
  | jccAlias cc rel => exact decode_ib (templateOf_jccAlias cc) rel rest
  | esc code e => exact decode_rm16 (templateOf_esc _) (by simp only [escCode_halves]) h rest
  | rolEb1 e | rorEb1 e | rclEb1 e | rcrEb1 e | shlEb1 e | shrEb1 e | setmoEb1 e | sarEb1 e | rolEbCl e | rorEbCl e
  | rclEbCl e | rcrEbCl e | shlEbCl e | shrEbCl e | setmocEbCl e | sarEbCl e | notEb e | negEb e | mulEb e | imulEb e
  | divEb e | idivEb e | incEb e | decEb e => exact decode_rm8 rfl rfl h rest
  | addEbIb e i | orEbIb e i | adcEbIb e i | sbbEbIb e i | andEbIb e i | subEbIb e i | xorEbIb e i | cmpEbIb e i
  | addEbIbAlias e i | orEbIbAlias e i | adcEbIbAlias e i | sbbEbIbAlias e i | andEbIbAlias e i | subEbIbAlias e i
  | xorEbIbAlias e i | cmpEbIbAlias e i | movEbIb e i | testEbIb e i | testEbIbAlias e i => exact decode_rm8_ib rfl rfl h _ rest
  | movEsEw e | movCsEwRefused1 e | movSsEw e | movDsEw e | movEsEwAlias e | movCsEwRefused5 e | movSsEwAlias e
  | movDsEwAlias e | popEv e | rolEv1 e | rorEv1 e | rclEv1 e | rcrEv1 e | shlEv1 e | shrEv1 e | setmoEv1 e | sarEv1 e
  | rolEvCl e | rorEvCl e | rclEvCl e | rcrEvCl e | shlEvCl e | shrEvCl e | setmocEvCl e | sarEvCl e | notEv e | negEv e
  | mulEv e | imulEv e | divEv e | idivEv e | incEv e | decEv e | callEv e | jmpEv e | pushEv e | ff7Refused e =>
    exact decode_rm16 rfl rfl h rest
  | callMp m | jmpMp m => exact decode_rm16 (e := .mem m) rfl rfl h rest
  | callMpRegRefused r | jmpMpRegRefused r => exact decode_rm16 (e := .reg r) rfl rfl rfl rest
  | addEvIbSx e i | orEvIbSx e i | adcEvIbSx e i | sbbEvIbSx e i | andEvIbSx e i | subEvIbSx e i | xorEvIbSx e i
  | cmpEvIbSx e i => exact decode_rm16_ib rfl rfl h _ rest
  | addEvIw e i | orEvIw e i | adcEvIw e i | sbbEvIw e i | andEvIw e i | subEvIw e i | xorEvIw e i | cmpEvIw e i
  | movEvIw e i | testEvIw e i | testEvIwAlias e i => exact decode_rm16_iw rfl rfl h _ rest
  | movEwSw e sr | movEwSwAlias e sr => exact decode_rm16 rfl (by cases sr <;> rfl) h rest
  | leaGvM g m | lesGvMp g m | ldsGvMp g m => exact decode_rm16 (e := .mem m) rfl (by cases g <;> rfl) h rest
  | leaGvRegRefused g r | lesGvRegRefused g r | ldsGvRegRefused g r =>
    exact decode_rm16 (e := .reg r) rfl (by cases g <;> rfl) rfl rest
  | pop8FRefused reg e =>
    obtain ⟨hr, he⟩ := Bool.and_eq_true_iff.mp h
    exact decode_rm16 rfl (group8F_refused (bne_iff_ne.mp hr) e) he rest
  | movC6Refused reg e i =>
    obtain ⟨hr, he⟩ := Bool.and_eq_true_iff.mp h
    exact decode_rm8_ib rfl (groupC6_refused (bne_iff_ne.mp hr) e) he i rest
  | movC7Refused reg e i =>
    obtain ⟨hr, he⟩ := Bool.and_eq_true_iff.mp h
    exact decode_rm16_iw rfl (groupC7_refused (bne_iff_ne.mp hr) e) he i rest
  | feRefused reg e =>
    obtain ⟨hr, he⟩ := Bool.and_eq_true_iff.mp h
    exact decode_rm8 rfl (groupFE_refused (of_decide_eq_true hr) e) he rest
  | _ => rfl

end Sys2Proof

namespace Sys2Proof.Machine

open Sys2Proof.Claims

/-! Prefix rows (30 R410). -/

theorem isPrefix_iff (q : Instr) : isPrefix q = true ↔ q = .prefixLockAlias ∨ q = .prefixEs ∨ q = .prefixCs ∨ q = .prefixSs ∨
    q = .prefixDs ∨ q = .prefixLock ∨ q = .prefixRepne ∨ q = .prefixRep := by
  simp only [isPrefix, Bool.or_eq_true, beq_iff_eq, or_assoc, or_left_comm (b := q = .prefixLockAlias)]

theorem exec_prefixLockAlias {s : State} (h : s.params.undocMode ≠ .refuse) :
    exec .prefixLockAlias s = .next (lockPrefix s) := by
  cases hm : s.params.undocMode with
  | refuse => exact absurd hm h
  | asAlias => simp only [exec, execPrefixLockAlias, aliasOf, hm]

/-- Each row of `isPrefix` is one byte, F1 the one that `UNDOC_MODE = refuse` refuses; it changes `pfx` as its byte does, in the
decoder's record as in `exec`. -/
theorem prefix_row {q : Instr} (h : isPrefix q = true) : ∃ b f, encode q = [b] ∧ prefixEffect b = some f ∧
    (b = 0xF1 ↔ q = .prefixLockAlias) ∧ ∀ s : State, (q = .prefixLockAlias → s.params.undocMode ≠ .refuse) →
      ∃ t, exec q s = .next t ∧ t.cpu.pfx = f s.cpu.pfx ∧ t.params = s.params := by
  rcases (isPrefix_iff q).mp h with rfl | rfl | rfl | rfl | rfl | rfl | rfl | rfl
  · exact ⟨_, _, rfl, rfl, by decide, fun s hs => ⟨_, exec_prefixLockAlias (hs rfl), rfl, rfl⟩⟩
  all_goals exact ⟨_, _, rfl, rfl, by decide, fun s _ => ⟨_, rfl, rfl, rfl⟩⟩

/-- A byte with a `prefixEffect` is a row of its own, one of `isPrefix`. -/
theorem decode_of_prefixEffect {b : Byte} (h : (prefixEffect b).isSome = true) (bs : List Byte) :
    ∃ q, isPrefix q = true ∧ decode (b :: bs) = .ok (q, bs) := by
  have hb : b ∈ [0x26, 0x2E, 0x36, 0x3E, 0xF0, 0xF1, 0xF2, 0xF3] := by revert b; decide
  simp only [List.mem_cons, List.not_mem_nil, or_false] at hb
  rcases hb with rfl | rfl | rfl | rfl | rfl | rfl | rfl | rfl <;> exact ⟨_, rfl, rfl⟩

/-! The flags of the record (30 R403, R404; log 47). -/

theorem usesMemory_of_modrm {op : Byte} (h : hasModrm op = true) (b : Byte) : usesMemory op b = true ↔ modOf b ≠ 3 := by
  have hop : 0xA0 ≤ op → ¬ op ≤ 0xA3 := by revert op; decide
  simpa [usesMemory, h] using fun hlo hhi => absurd hhi (hop hlo)

theorem usesMemory_of_no_modrm {op : Byte} (h : hasModrm op = false) (b : Byte) :
    usesMemory op b = true ↔ 0xA0 ≤ op ∧ op ≤ 0xA3 := by
  simp [usesMemory, h]

theorem isRelativeJump_iff (op : Byte) : isRelativeJump op = true ↔
    (0x60 ≤ op ∧ op ≤ 0x7F) ∨ (0xE0 ≤ op ∧ op ≤ 0xE3) ∨ op = 0xE8 ∨ op = 0xE9 ∨ op = 0xEB := by
  simp [isRelativeJump, or_assoc]

/-- An opcode with a ModR/M byte is no row by itself. -/
theorem decode_modrm_alone : ∀ op : Byte, hasModrm op = true → (decode [op]).isOk = false := by decide

/-! The bytes of a well-formed instruction: an opcode, and its ModR/M byte where it has one (30 R400, R440). -/

theorem encode_eq_cons {i : Instr} (h : i.wf = true) : ∃ op tail, encode i = op :: tail := by
  have hd := decode_encode i [] h
  cases he : encode i with
  | nil => rw [he] at hd; cases hd
  | cons op tail => exact ⟨op, tail, rfl⟩

theorem encode_tail_of_modrm {i : Instr} {op : Byte} {tail : List Byte} (h : i.wf = true) (he : encode i = op :: tail)
    (hm : hasModrm op = true) : ∃ b bs, tail = b :: bs := by
  have hd := decode_encode i [] h
  cases tail with
  | nil =>
    have hfalse := decode_modrm_alone op hm
    rw [he, List.append_nil] at hd
    rw [hd] at hfalse
    cases hfalse
  | cons b bs => exact ⟨b, bs, rfl⟩

/-! The record of a run of prefixes and of the row after it (30 R404, R410). -/

theorem decodeRecordFrom_cons {b : Byte} {f : PrefixState → PrefixState} {mode : UndocMode} (hf : prefixEffect b = some f)
    (hb : ¬ (b = 0xF1 ∧ mode = .refuse)) (addr : Word) (p : PrefixState) (n : Nat) (bs : List Byte) :
    decodeRecordFrom mode addr p n (b :: bs) = decodeRecordFrom mode addr (f p) (n + 1) bs := by
  rw [decodeRecordFrom, if_neg hb, hf]

/-- The opcode byte of any other row ends the loop over the prefixes. -/
theorem prefixEffect_of_not_prefix {i : Instr} {op : Byte} {bs rest : List Byte} (hd : decode (op :: bs) = .ok (i, rest))
    (hi : isPrefix i = false) : prefixEffect op = none := by
  rw [← Option.not_isSome_iff_eq_none]
  intro hsome
  obtain ⟨q, hq, hdq⟩ := decode_of_prefixEffect hsome bs
  obtain ⟨rfl, _⟩ := Prod.mk.inj (Except.ok.inj (hd.symm.trans hdq))
  rw [hq] at hi
  cases hi

theorem decodeRecordFrom_row {i : Instr} {op : Byte} {tail : List Byte} (h : i.wf = true) (he : encode i = op :: tail)
    (hi : isPrefix i = false) (mode : UndocMode) (addr : Word) (p : PrefixState) (n : Nat) (rest : List Byte) :
    decodeRecordFrom mode addr p n (encode i ++ rest) = .ok
      ({ opcode := op, instr := i, prefixes := p, addr := addr, size := n + (encode i).length, hasModrm := hasModrm op
         usesMemory := usesMemory op ((tail ++ rest).headD 0), relativeJump := isRelativeJump op }, rest) := by
  have hd := decode_encode i rest h
  rw [he, List.cons_append] at hd ⊢
  have hnone := prefixEffect_of_not_prefix hd hi
  have hF1 : ¬ (op = 0xF1 ∧ mode = .refuse) := by
    rintro ⟨rfl, _⟩
    cases hnone
  have hsize : (tail ++ rest).length + 1 - rest.length = (op :: tail).length := by
    rw [List.length_append, List.length_cons]; omega
  rw [decodeRecordFrom, if_neg hF1, hnone]
  simp only [hd, hsize]

/-- The record's loop over the prefixes ends in the `pfx` that executing the rows leaves. -/
theorem decodeRecordFrom_prefixes (addr : Word) (bs : List Byte) (ps : List Instr) : ∀ (s : State) (n : Nat),
    (s.params.undocMode = .refuse → Instr.prefixLockAlias ∉ ps) → (∀ q ∈ ps, isPrefix q = true) →
    ∃ t, execRows ps s = some t ∧ decodeRecordFrom s.params.undocMode addr s.cpu.pfx n (ps.flatMap encode ++ bs) =
      decodeRecordFrom s.params.undocMode addr t.cpu.pfx (n + ps.length) bs := by
  induction ps with
  | nil => exact fun s n _ _ => ⟨s, rfl, rfl⟩
  | cons q qs ih =>
    intro s n hmode hps
    obtain ⟨hq, hqs⟩ := List.forall_mem_cons.mp hps
    obtain ⟨b, f, hb, hf, hF1, hexec⟩ := prefix_row hq
    obtain ⟨u, hu, hpfx, hparams⟩ := hexec s fun h hr => hmode hr (h ▸ List.mem_cons_self)
    obtain ⟨t, ht, hrec⟩ := ih u (n + 1) (fun hr h => hmode (hparams ▸ hr) (List.mem_cons_of_mem _ h)) hqs
    have hb1 : ¬ (b = 0xF1 ∧ s.params.undocMode = .refuse) :=
      fun ⟨h1, hr⟩ => hmode hr (hF1.mp h1 ▸ List.mem_cons_self)
    refine ⟨t, by rw [execRows, hu]; exact ht, ?_⟩
    rw [hparams, hpfx] at hrec
    rw [List.flatMap_cons, hb, List.append_assoc, List.singleton_append, decodeRecordFrom_cons hf hb1, hrec, List.length_cons,
      Nat.add_assoc, Nat.add_comm 1]

/-- F1 anywhere in the run ends it where it is refused (30 R457). -/
theorem decodeRecordFrom_refused (addr : Word) (bs : List Byte) (ps : List Instr) : ∀ (p : PrefixState) (n : Nat),
    (∀ q ∈ ps, isPrefix q = true) → Instr.prefixLockAlias ∈ ps →
    decodeRecordFrom .refuse addr p n (ps.flatMap encode ++ bs) = .error .undocumentedPrefix := by
  induction ps with
  | nil => exact fun _ _ _ h => absurd h List.not_mem_nil
  | cons q qs ih =>
    intro p n hps hmem
    obtain ⟨hq, hqs⟩ := List.forall_mem_cons.mp hps
    obtain ⟨b, f, hb, hf, hF1, _⟩ := prefix_row hq
    rw [List.flatMap_cons, hb, List.append_assoc, List.singleton_append]
    by_cases h1 : b = 0xF1
    · rw [decodeRecordFrom, if_pos ⟨h1, rfl⟩]
    · rw [decodeRecordFrom_cons hf fun h => h1 h.1]
      exact ih (f p) (n + 1) hqs ((List.mem_cons.mp hmem).resolve_left fun h => h1 (hF1.mpr h.symm))

/-- Settles O46: the round trip row by row, and the record by induction over the prefixes. -/
theorem decodeEncode : Obligations.DecodeEncode := by
  unfold Obligations.DecodeEncode
  refine ⟨decode_encode, fun s ps i rest hpfx hmode hps hi h => ?_,
    fun addr ps rest hps hmem => decodeRecordFrom_refused addr rest ps PrefixState.none 0 hps hmem⟩
  obtain ⟨op, tail, he⟩ := encode_eq_cons h
  obtain ⟨t, ht, hprefixes⟩ := decodeRecordFrom_prefixes s.cpu.ip (encode i ++ rest) ps s 0 hmode hps
  rw [hpfx, Nat.zero_add] at hprefixes
  have hrow := decodeRecordFrom_row h he hi s.params.undocMode s.cpu.ip t.cpu.pfx ps.length rest
  rw [List.append_assoc]
  refine ⟨_, t, op, tail, he, ht, hprefixes.trans hrow, rfl, rfl, rfl, rfl, rfl, rfl, fun hm => ?_,
    fun hm => usesMemory_of_no_modrm hm _, isRelativeJump_iff op⟩
  obtain ⟨b, bs, rfl⟩ := encode_tail_of_modrm h he hm
  exact ⟨b, bs, rfl, usesMemory_of_modrm hm b⟩

/-! Effective addresses and their segments (30 R421, R422). -/

theorem effSeg_of_override {s : State} {r : Sreg} (h : s.cpu.pfx.segOverride = some r) (m : Mem) : effSeg m s = r := by
  rw [effSeg, State.segOr, h, Option.getD_some]

theorem effSeg_of_no_override {s : State} (h : s.cpu.pfx.segOverride = none) (m : Mem) : effSeg m s = defaultSegment m := by
  rw [effSeg, State.segOr, h, Option.getD_none]

theorem baseSegment_eq (b : Base) : baseSegment b = if b = .bpSi ∨ b = .bpDi ∨ b = .bp then .ss else .ds := by
  cases b <;> rfl

/-- Settles O7: addresses by the equations of `effAddr`, segments by the override or the default. -/
theorem effectiveAddresses : Obligations.EffectiveAddresses := by
  unfold Obligations.EffectiveAddresses
  refine fun s b d8 d16 => ⟨by cases b <;> rfl, rfl, rfl, rfl, rfl, fun r h m => effSeg_of_override h m,
    fun h => ⟨effSeg_of_no_override h _, fun m hm => ?_⟩⟩
  rw [effSeg_of_no_override h, ← baseSegment_eq]
  rcases hm with rfl | rfl | rfl <;> rfl

/-! Prefixes (45 R1110 to R1112). -/

/-- Settles O37: each is `seePrefix` with its own change of `pfx`, F1 set after it by the REP prefixes. -/
theorem prefixForms : Obligations.PrefixForms := by
  unfold Obligations.PrefixForms
  exact fun s => ⟨rfl, rfl, rfl, rfl, rfl, rfl, rfl⟩

/-! Refusals (30 R455 to R457). -/

theorem aliasOf_refuse {s : State} (h : s.params.undocMode = .refuse) (op : Byte) (t : State) :
    aliasOf op s t = .refused (.undocumentedOpcode s.instrAddr op) := by
  rw [aliasOf, h]

theorem exec_of_refusedForm {i : Instr} {op : Byte} (h : refusedForm i = some op) (s : State) : exec i s = refuseForm op s := by
  unfold refusedForm at h
  split at h <;> cases h <;> rfl

theorem exec_of_documented {i d : Instr} {op : Byte} (h : documented i = some (d, op)) (s : State) :
    ∃ t, exec i s = aliasOf op s t := by
  cases i with
  | addEbIbAlias | orEbIbAlias | adcEbIbAlias | sbbEbIbAlias | andEbIbAlias | subEbIbAlias | xorEbIbAlias | cmpEbIbAlias
  | testEbIbAlias | testEvIwAlias | movEwSwAlias | movEsEwAlias | movSsEwAlias | movDsEwAlias | jccAlias | retIwAlias | retAlias
  | retfIwAlias | retfAlias | prefixLockAlias =>
    cases h
    exact ⟨_, rfl⟩
  | _ => cases h

theorem exec_of_undocumented {i : Instr} {op : Byte} (h : undocumented i = some op) (s : State) :
    ∃ t, exec i s = aliasOf op s t := by
  unfold undocumented at h
  split at h <;> cases h <;> exact ⟨_, rfl⟩

/-- Settles O38: a form of R456 is `refuseForm`, an undocumented row `aliasOf`, which refuses under `UNDOC_MODE = refuse`. -/
theorem refusedForms : Obligations.RefusedForms := by
  unfold Obligations.RefusedForms
  refine fun i s => ⟨fun op h => exec_of_refusedForm h s, fun hmode op h => ?_⟩
  obtain ⟨t, ht⟩ : ∃ t, exec i s = aliasOf op s t := by
    rcases h with ⟨d, hd⟩ | hu
    · exact exec_of_documented hd s
    · exact exec_of_undocumented hu s
  rw [ht, aliasOf_refuse hmode, State.instrAddr]

/-! Words of the encoding tables (30 R420 to R439). -/

/-- Settles O47, each word decoded by evaluation. -/
theorem decodeWords : Obligations.DecodeWords := by
  unfold Obligations.DecodeWords
  exact ⟨rfl, rfl, rfl, rfl, rfl, rfl, rfl, rfl, rfl, rfl, rfl, rfl, rfl, rfl⟩

end Sys2Proof.Machine

/-! The sequencer (31_sequencer): how an instruction begins and ends, what a halted slice enters, the invariant of every
reachable state, the round trip of PUSH and POP. -/

namespace Sys2Proof.Machine

/-! The invariant (31 R551). -/

theorem Inv.of_keeps {s t : State} (h : Keeps s t) (k : Inv s) : Inv t := by
  obtain ⟨hb, ha⟩ := h.queue ⟨k.bounded, k.aligned⟩
  exact ⟨hb, ha, h.bus.wf k.canonical⟩

/-- Settles O49: every step keeps the queue invariants and changes the bus by stores only (`Keeps`), which keep the canonical
form of memory. -/
theorem invEveryStep : Obligations.InvEveryStep := by
  unfold Obligations.InvEveryStep
  exact fun s t hs h => .of_keeps (step_keeps h) hs

/-- Settles O48: the queue is empty with PFP at IP, and memory has no cell. -/
theorem invAtReset : Obligations.InvAtReset := by
  unfold Obligations.InvAtReset
  obtain ⟨hb, ha⟩ : QueueOk State.reset := queueOk_empty rfl rfl rfl
  exact ⟨hb, ha, rfl⟩

/-! The instruction's frame (31 R502, R503). -/

theorem beginInstruction_eq (s : State) : beginInstruction s = s.mapCpu fun c =>
    { c with inhibit := false, trapPending := c.trapPending && !c.inhibit, tempTF := c.flags.tf, pfx := PrefixState.none
             f1 := false, ipStart := c.ip } := by
  have h : (if s.cpu.inhibit then false else s.cpu.trapPending) = (s.cpu.trapPending && !s.cpu.inhibit) := by
    cases s.cpu.inhibit <;> simp
  simp only [beginInstruction, State.mapCpu, h]

theorem finishInstruction_of_repRun_none {s : State} (h : s.cpu.repRun = none) (b : Bool) : finishInstruction b s =
    s.mapCpu fun c => { c with trapPending := c.tempTF, inhibit := b, pfx := PrefixState.none, f1 := false } := by
  simp only [finishInstruction, h]
  rfl

theorem finishInstruction_of_repRun {s : State} (h : s.cpu.repRun ≠ none) (b : Bool) : finishInstruction b s = s :=
  if_pos (Option.isSome_iff_ne_none.mpr h)

theorem setsInhibit_iff (i : Instr) : setsInhibit i = true ↔ i = .sti ∨ i = .popEs ∨ i = .popSs ∨ i = .popDs ∨
    ∃ e, i = .movEsEw e ∨ i = .movSsEw e ∨ i = .movDsEw e ∨ i = .movEsEwAlias e ∨ i = .movSsEwAlias e ∨
      i = .movDsEwAlias e := by
  constructor
  · intro h
    unfold setsInhibit at h
    split at h
    case h_11 => cases h
    all_goals simp
  · rintro (rfl | rfl | rfl | rfl | ⟨e, rfl | rfl | rfl | rfl | rfl | rfl⟩) <;> rfl

/-- Settles O40: begin and end by their equations, the inhibit by the arms of `setsInhibit`. -/
theorem instructionFrame : Obligations.InstructionFrame := by
  unfold Obligations.InstructionFrame
  exact ⟨beginInstruction_eq, fun b _ h => finishInstruction_of_repRun_none h b, fun b _ h => finishInstruction_of_repRun h b,
    setsInhibit_iff⟩

/-! Boundary entries (60 R1230, R1233). -/

/-- `Enters` says nothing of the source's BIU. -/
theorem Enters.of_resumed {n : Byte} {ret : Word} {f : Flags} {s t : State} (h : Enters n ret f (resumeFetch s) t) :
    Enters n ret f s t := by
  obtain ⟨o, sel, ho, hsel, hcpu, hbus, hdev, hflush, hframe⟩ := h
  exact ⟨o, sel, ho, hsel, hcpu, hbus, hdev, hflush, ⟨hframe.bytes, hframe.rom, hframe.mmio, hframe.cap, hframe.params,
    hframe.marks, hframe.ir, hframe.nmi, hframe.dreq⟩⟩

theorem boundaryEntry_of_nmi {s : State} (h : s.cpu.nmiLatch = true) :
    boundaryEntry s = .next (enter 2 s.cpu.ip (s.mapCpu fun c => { c with nmiLatch := false })) :=
  if_pos h

theorem boundaryEntry_of_trap {s : State} (h : s.cpu.nmiLatch = false) (hi : intrDue s = false) :
    boundaryEntry s = .next (enter 1 s.cpu.ip (s.mapCpu fun c => { c with trapPending := false })) := by
  simp only [boundaryEntry, h, hi, Bool.false_eq_true, if_false]

theorem boundaryEntry_of_intr {s : State} (h : s.cpu.nmiLatch = false) (hi : intrDue s = true) {v : Byte} {p : Pic}
    (hp : s.dev.pic.acknowledge = some (v, p)) :
    ∃ t, boundaryEntry s = .next t ∧ Enters v s.cpu.ip s.cpu.flags (s.mapPic fun _ => p) t := by
  obtain ⟨u, hu, e⟩ := acknowledge_effect hp
  have k := enter_enters v u.cpu.ip u
  rw [e.1] at k
  refine ⟨enter v s.cpu.ip u, ?_, Enters.of_effect (f := s.cpu.flags) e k⟩
  simp only [boundaryEntry, h, hi, hu, e.1, Bool.false_eq_true, if_false, if_true]

theorem boundaryEntry_of_refused {s : State} (h : s.cpu.nmiLatch = false) (hi : intrDue s = true)
    (hp : s.dev.pic.acknowledge = none) : boundaryEntry s = .refused .acknowledgeForm := by
  simp only [boundaryEntry, h, hi, acknowledge, hp, Bool.false_eq_true, if_false, if_true]

theorem intrDue_iff (s : State) : intrDue s = true ↔ s.cpu.flags.ifl = true ∧ s.dev.pic.int = true := Bool.and_eq_true_iff

/-! Halted slices (31 R530, R531). -/

theorem cpuStep_of_halted {s : State} (hf : s.marks.fault = none) (hr : s.marks.refusal = none) (h : s.cpu.halted = true) :
    cpuStep s = haltedSlice s := by
  simp only [cpuStep, hf, hr, h, if_true]

theorem haltedSlice_idle {s : State} (hn : s.cpu.nmiLatch = false) (hi : intrDue s = false) : haltedSlice s = .next s := by
  simp only [haltedSlice, hn, hi, Bool.or_self, Bool.false_eq_true, if_false]

/-- An NMI or a recognised INTR wakes the CPU into the entry. -/
theorem haltedSlice_wakes {s : State} (h : s.cpu.nmiLatch = true ∨ intrDue s = true) :
    haltedSlice s = boundaryEntry (resumeFetch (s.mapCpu fun c => { c with halted := false })) :=
  if_pos (Bool.or_eq_true_iff.mpr h)

/-- Settles O42: a halted slice is idle or wakes into the boundary entry, whose cases are NMI and the acknowledged INTR. -/
theorem haltedSlices : Obligations.HaltedSlices := by
  unfold Obligations.HaltedSlices
  intro s hf hr hh
  rw [cpuStep_of_halted hf hr hh, ← intrDue_iff]
  refine ⟨fun hn hi => haltedSlice_idle hn (eq_false_of_ne_true hi), fun hn => ?_, fun hn hif hint => ?_⟩
  · exact ⟨_, (haltedSlice_wakes (.inl hn)).trans (boundaryEntry_of_nmi hn), Enters.of_resumed (enter_enters 2 s.cpu.ip _)⟩
  · have hi : intrDue s = true := (intrDue_iff s).mpr ⟨hif, hint⟩
    rw [haltedSlice_wakes (.inr hi)]
    refine ⟨fun v p hp => ?_, fun hp => boundaryEntry_of_refused hn hi hp⟩
    obtain ⟨t, ht, k⟩ := boundaryEntry_of_intr (s := resumeFetch (s.mapCpu fun c => { c with halted := false })) hn hi hp
    exact ⟨t, ht, Enters.of_resumed k⟩

/-! PUSH and POP (31 R552). -/

theorem Effect.frame {s t : State} {c : Cpu} {b : Bus} {x : List LinAddr} (h : Effect s t c b x) : Frame s t x := h.2.2.2.2

theorem isDevice_of_writable {b : Bus} {a : LinAddr} (h : b.writable a = true) : b.isDevice a = false :=
  ((writable_eq_true_iff b a).1 h).1

@[simp] theorem storeWord_isDevice (b : Bus) (base off v : Word) (a : LinAddr) :
    (b.storeWord base off v).isDevice a = b.isDevice a := by
  rw [Bus.storeWord, store_isDevice, store_isDevice]

/-- A word stored in memory that takes stores reads back (20 R212, R220). -/
theorem readsWord_storeWord {b : Bus} (hb : Memory.wf b.mem = true) {base off : Word}
    (h : ∀ a ∈ wordCells base off, b.writable a = true) {v w : Word} (hw : ReadsWord (b.storeWord base off v) base off w) :
    w = v := by
  obtain ⟨hlo, hhi⟩ := hw
  have elo : loByte w = loByte v := by
    rw [hlo (by rw [storeWord_isDevice]; exact isDevice_of_writable (h _ (by simp [wordCells]))),
      storeWord_byte_of_writable hb h, if_pos rfl]
  have ehi : hiByte w = hiByte v := by
    rw [hhi (by rw [storeWord_isDevice]; exact isDevice_of_writable (h _ (by simp [wordCells]))),
      storeWord_byte_of_writable hb h, if_neg (lin_ne_lin_succ base off).symm, if_pos rfl]
  rw [← mkWord_halves w, elo, ehi, mkWord_halves]

theorem push_reg16_sp (v : Word) (s : State) : (push v s).reg16 .sp = s.reg16 .sp - 2 := by
  rw [State.reg16, push_cpu, put16_regs, RegFile.get_set_same]

theorem push_seg_ss (v : Word) (s : State) : (push v s).seg .ss = s.seg .ss := by
  rw [State.seg, push_cpu, put16_segs]; rfl

/-- POP takes what PUSH has put where the stack word can be written. -/
theorem pop_push_value {s : State} (hb : Memory.wf s.bus.mem = true)
    (hw : ∀ a ∈ wordCells (s.seg .ss) (s.reg16 .sp - 2), s.bus.writable a = true) (v : Word) : (pop (push v s)).1 = v := by
  obtain ⟨h, _⟩ := pop_effect (push v s)
  rw [push_bus, push_seg_ss, push_reg16_sp] at h
  exact readsWord_storeWord hb hw h

theorem pop_push_regs (v : Word) (s : State) : (pop (push v s)).2.cpu.regs = s.cpu.regs := by
  rw [pop_cpu, put16_regs, push_reg16_sp, push_cpu, BitVec.sub_add_cancel, ← put16_regs, put16_put16_same]
  exact RegFile.set_get s.cpu.regs .sp

/-- The state POPF leaves. -/
def popFlags (s : State) : State := (pop s).2.setFlags (flagsOfWord (pop s).1)

theorem exec_pushR16 (r : Reg16) (s : State) : exec (.pushR16 r) s = .next (pushReg r s) := rfl

theorem exec_popR16 (r : Reg16) (s : State) : exec (.popR16 r) s = .next (popReg r s) := rfl

theorem exec_pushf (s : State) : exec .pushf s = .next (push s.cpu.flags.image s) := rfl

theorem exec_popf (s : State) : exec .popf s = .next (popFlags s) := rfl

theorem popReg_bus (r : Reg16) (s : State) : (popReg r s).bus = s.bus := by
  rw [popReg, setReg16_bus, pop_bus]

/-- Settles O24: SP goes down and up by 2, and the word read back is the one stored. -/
theorem pushPopRoundTrip : Obligations.PushPopRoundTrip := by
  unfold Obligations.PushPopRoundTrip
  refine fun s hb hw => ⟨fun r hr => ⟨_, _, exec_pushR16 r s, exec_popR16 r _, ?_, fun a ha => ?_⟩,
    _, _, exec_pushf s, exec_popf _, ?_, ?_⟩
  · rw [pushReg, if_neg hr, popReg, pop_push_value hb hw, setReg16_cpu, put16_regs, pop_push_regs]
    exact RegFile.set_get s.cpu.regs r
  · rw [popReg_bus]
    exact (push_effect _ s).frame.bytes a ha
  · rw [popFlags, pop_push_value hb hw, flagsOfWord_image, setFlags_cpu, putFlags_flags]
  · rw [popFlags, setFlags_cpu, putFlags_regs, pop_push_regs]

end Sys2Proof.Machine

/-! The step and the instruction stream (31 R500 to R502, 21 R320 to R325, 30 R428): a step's two parts, the decoding mark,
and that taking bytes until they decode takes those of the next row. -/

namespace Sys2Proof.Machine

open Sys2Proof.Claims

/-! The step from its CPU step (31 R500, R501). -/

theorem step_eq_thenSchedule (s : State) : step s = thenSchedule (cpuStep s) := by
  rw [step]
  cases cpuStep s <;> rfl

theorem afterCpuStep_of_decoding {s : State} (h : s.cpu.decoding = true) : afterCpuStep s = s := if_pos h

theorem afterCpuStep_of_not_decoding {s : State} (h : s.cpu.decoding = false) : afterCpuStep s = schedulerStep s := by
  rw [afterCpuStep, h]
  rfl

theorem cpuStep_of_active {s : State} (h : Active s) : cpuStep s =
    if s.cpu.decoding then continueDecoding s else if entryDue s then boundaryEntry s else instructionStep s := by
  obtain ⟨hf, hr, hh, hrep⟩ := h
  simp only [cpuStep, hf, hr, hh, hrep, Bool.false_eq_true, if_false]

/-! The decoding mark (log 13): only `runInstruction` sets it. -/

theorem enter_decoding (n : Byte) (ret : Word) (s : State) : (enter n ret s).cpu.decoding = s.cpu.decoding := by
  obtain ⟨o, sel, _, _, hcpu, _⟩ := enter_enters n ret s
  rw [hcpu]
  rfl

theorem Enters.decoding {n : Byte} {ret : Word} {f : Flags} {s t : State} (h : Enters n ret f s t) :
    t.cpu.decoding = s.cpu.decoding := by
  obtain ⟨o, sel, _, _, hcpu, _⟩ := h
  rw [hcpu]
  rfl

theorem boundaryEntry_decoding {s t : State} (h : boundaryEntry s = .next t) : t.cpu.decoding = s.cpu.decoding := by
  cases hn : s.cpu.nmiLatch with
  | true =>
    rw [boundaryEntry_of_nmi hn] at h
    rw [← Host.Outcome.next.inj h, enter_decoding, mapCpu_cpu]
  | false =>
    cases hi : intrDue s with
    | true =>
      cases hp : s.dev.pic.acknowledge with
      | none => rw [boundaryEntry_of_refused hn hi hp] at h; cases h
      | some q =>
        obtain ⟨u, hu, k⟩ := boundaryEntry_of_intr hn hi hp
        rw [hu] at h
        have e := Enters.decoding k
        rw [← Host.Outcome.next.inj h]
        exact e
    | false =>
      rw [boundaryEntry_of_trap hn hi] at h
      rw [← Host.Outcome.next.inj h, enter_decoding, mapCpu_cpu]

@[simp] theorem readElem_cpu (wide : Bool) (sr : Sreg) (off : Word) (s : State) : (readElem wide sr off s).2.cpu = s.cpu :=
  (readElem_effect wide sr off s).2.2.1

@[simp] theorem writeElem_cpu (wide : Bool) (sr : Sreg) (off v : Word) (s : State) : (writeElem wide sr off v s).cpu = s.cpu :=
  (writeElem_effect wide sr off v s).1

@[simp] theorem stepIndex_decoding (r : Reg16) (wide : Bool) (s : State) :
    (stepIndex r wide s).cpu.decoding = s.cpu.decoding := rfl

@[simp] theorem writeAcc_decoding (wide : Bool) (v : Word) (s : State) : (writeAcc wide v s).cpu.decoding = s.cpu.decoding := by
  cases wide <;> rfl

@[simp] theorem putFlags_decoding (c : Cpu) (f : Flags) : (c.putFlags f).decoding = c.decoding := rfl

theorem stringIteration_decoding (op : StringOp) (wide : Bool) (ovr : Option Sreg) (s : State) :
    (stringIteration op wide ovr s).cpu.decoding = s.cpu.decoding := by
  cases op <;> simp [stringIteration]

theorem repIteration_decoding (r : RepRun) (s : State) : (repIteration r s).cpu.decoding = s.cpu.decoding :=
  stringIteration_decoding r.op r.wide r.segOverride s

theorem finishInstruction_decoding (b : Bool) (s : State) : (finishInstruction b s).cpu.decoding = s.cpu.decoding := by
  rw [finishInstruction, apply_ite (fun t : State => t.cpu.decoding)]
  exact ite_id _

theorem rewindRep_decoding (r : RepRun) (s : State) : (rewindRep r s).cpu.decoding = s.cpu.decoding := by
  have h (o : Word) : (clearPrefixes ((jumpNear o s).setRepRun none)).cpu.decoding = s.cpu.decoding := by
    have k := congrArg Cpu.decoding (jumpNear_transfer o s).1
    exact k
  unfold rewindRep
  dsimp only
  split <;> exact h _

theorem repStep_decoding {r : RepRun} {s t : State} (h : repStep r s = .next t) : t.cpu.decoding = s.cpu.decoding := by
  unfold repStep at h
  split at h
  · exact (boundaryEntry_decoding h).trans (rewindRep_decoding r s)
  · cases h
    rw [finishInstruction_decoding, repIteration_decoding]

theorem haltedSlice_decoding {s t : State} (h : haltedSlice s = .next t) : t.cpu.decoding = s.cpu.decoding := by
  unfold haltedSlice at h
  split at h
  · have k := boundaryEntry_decoding h
    exact k
  · cases h
    rfl

/-- A halted slice, a REP step and a boundary entry leave the mark. -/
theorem cpuStep_decoding {s t : State} (hd : s.cpu.decoding = false)
    (hk : s.cpu.halted = true ∨ s.cpu.repRun.isSome = true ∨ entryDue s = true) (h : cpuStep s = .next t) :
    t.cpu.decoding = false := by
  rw [← hd]
  unfold cpuStep at h
  split at h
  · cases h
  · split at h
    · cases h
    · split at h
      · exact haltedSlice_decoding h
      · rename_i hh
        split at h
        · exact repStep_decoding h
        · rename_i hrep
          have he : entryDue s = true := (hk.resolve_left hh).resolve_left (by rw [hrep]; exact Bool.false_ne_true)
          simp only [hd, he, Bool.false_eq_true, if_false, if_true] at h
          exact boundaryEntry_decoding h

/-! The instruction stream (21 R320 to R325): no clock of the BIU changes a byte of it. -/

/-- The address of the k-th byte from CS:IP on (21 R322). -/
def codeAddr (s : State) (k : Nat) : LinAddr := lin s.cpu.segs.cs (s.cpu.ip + BitVec.ofNat 16 k)

theorem codeAddr_congr {s t : State} (hc : t.cpu = s.cpu) (k : Nat) : codeAddr t k = codeAddr s k := by
  rw [codeAddr, hc, codeAddr]

theorem fetchedBytes_of_none {b : Biu} (h : b.fetching = none) : fetchedBytes b = b.queue.map QueueByte.byte := by
  simp [fetchedBytes, h]

theorem fetchedBytes_of_some {b : Biu} {a : LinAddr} (h : b.fetching = some a) :
    fetchedBytes b = b.queue.map QueueByte.byte ++ b.cycle.incoming.toList := by
  simp [fetchedBytes, h]

theorem fetchedBytes_land (b : Biu) : fetchedBytes b.land =
    b.queue.map QueueByte.byte ++ (b.fetching.map fun _ => b.cycle.data).toList := by
  rw [fetchedBytes_of_none (land_fetching b), land_queue]
  cases b.fetching <;> simp

theorem streamByte_of_fetched {s : State} {k : Nat} {v : Byte} (h : (fetchedBytes s.biu)[k]? = some v) : streamByte s k = v := by
  simp only [streamByte, h]

theorem streamByte_of_memory {s : State} {k : Nat} (h : (fetchedBytes s.biu)[k]? = none) :
    streamByte s k = s.bus.byte (codeAddr s k) := by
  simp only [streamByte, h, codeAddr]

theorem streamByte_congr {s t : State} (hc : t.cpu = s.cpu) (hb : t.bus = s.bus)
    (hf : fetchedBytes t.biu = fetchedBytes s.biu) (k : Nat) : streamByte t k = streamByte s k := by
  simp only [streamByte, hc, hb, hf]

/-- A byte fetched from the memory behind the bytes already fetched. -/
theorem streamByte_append {s t : State} {v : Byte} (hc : t.cpu = s.cpu) (hb : t.bus = s.bus)
    (hf : fetchedBytes t.biu = fetchedBytes s.biu ++ [v]) {k : Nat}
    (hv : k = (fetchedBytes s.biu).length → v = s.bus.byte (codeAddr s k)) : streamByte t k = streamByte s k := by
  rcases Nat.lt_trichotomy k (fetchedBytes s.biu).length with hk | hk | hk
  · have e := List.getElem?_eq_getElem hk
    rw [streamByte_of_fetched e]
    exact streamByte_of_fetched (by rw [hf, List.getElem?_append_left hk, e])
  · rw [streamByte_of_fetched (v := v) (by rw [hf, hk, List.getElem?_concat_length]), hv hk]
    exact (streamByte_of_memory (List.getElem?_eq_none (Nat.le_of_eq hk.symm))).symm
  · rw [streamByte_of_memory (s := t) (List.getElem?_eq_none (by rw [hf, List.length_append]; exact hk)),
      streamByte_of_memory (List.getElem?_eq_none (Nat.le_of_lt hk)), hb, codeAddr_congr hc]

/-- A code fetch in progress fetches the byte behind the queue. -/
def FetchPlaced (s : State) : Prop := ∀ a, s.biu.fetching = some a → a = codeAddr s s.biu.queue.length

theorem QueueOk.fetchOnBus {s : State} (h : QueueOk s) : FetchOnBus s.biu := h.2.2.2

theorem QueueOk.fetchPlaced {s : State} (h : QueueOk s) : FetchPlaced s := by
  intro a ha
  obtain ⟨_, _, hq, _⟩ := h
  simp only [Biu.coming, ha, Option.toList_some, queueFrom_append, List.length_map] at hq
  exact hq.2

/-- Before its data phase a code fetch has no byte yet, and the clock brings none. -/
theorem fetchedBytes_clock_of_early {b : Biu} (h : b.cycle.tstate = .t1 ∨ b.cycle.tstate = .t2) (op : QueueOp)
    (v : Option Byte) : fetchedBytes (b.clock op v) = fetchedBytes b := by
  rcases h with h | h <;> simp [Biu.clock, tickWith, tick, h, fetchedBytes]

/-- In its data phase the byte of a code fetch stays on the bus, or is captured and queued. -/
theorem fetchedBytes_clock_of_data {b : Biu} (h : b.cycle.tstate = .t3 ∨ b.cycle.tstate = .tw) (hi : b.cycle.incoming.isSome)
    (op : QueueOp) (v : Option Byte) : fetchedBytes (b.clock op v) = fetchedBytes b := by
  obtain ⟨x, hx⟩ := Option.isSome_iff_exists.mp hi
  cases hw : b.cycle.waits with
  | zero =>
    rw [Biu.clock, if_pos (by simp only [tickWith, tick_end h hw]), fetchedBytes_land]
    cases hf : b.fetching <;> simp [tickWith, tick_end h hw, fetchedBytes, hf, hx]
  | succ n =>
    rw [Biu.clock, if_neg (by simp only [tickWith, tick_wait h hw]; exact TState.noConfusion)]
    simp [fetchedBytes, tickWith, tick_wait h hw]

theorem fetchedBytes_clock_of_none {b : Biu} (h : b.fetching = none) (op : QueueOp) (v : Option Byte) :
    fetchedBytes (b.clock op v) = fetchedBytes b := by
  rcases clock_cases op v b with ⟨_, e⟩ | ⟨_, e⟩
  · simp [e, fetchedBytes, h]
  · simp [e, fetchedBytes, h]

theorem fetchedBytes_clock {b : Biu} (h : FetchOnBus b) (op : QueueOp) (v : Option Byte) :
    fetchedBytes (b.clock op v) = fetchedBytes b := by
  cases hf : b.fetching with
  | none => exact fetchedBytes_clock_of_none hf op v
  | some a =>
    obtain ⟨_, _, ⟨ht, _⟩ | ⟨ht, hi⟩⟩ := h a hf
    · exact fetchedBytes_clock_of_early ht op v
    · exact fetchedBytes_clock_of_data ht hi op v

/-- The byte that the data phase of a code fetch reads comes behind those of the queue. -/
theorem fetchedBytes_fetchData {s : State} {a : LinAddr} (hf : s.biu.fetching = some a) (hi : s.biu.cycle.incoming = none) :
    fetchedBytes (fetchData s).biu = fetchedBytes s.biu ++ [(dispatchRead s.biu.cycle.addr s).1.value] := by
  simp [fetchedBytes, hf, hi]

theorem fetchData_streamByte {s : State} (hb : FetchOnBus s.biu) (hp : FetchPlaced s) (h2 : s.biu.cycle.tstate = .t2) {k : Nat}
    (hd : s.bus.isDevice (codeAddr s k) = false) : streamByte (fetchData s) k = streamByte s k := by
  cases hf : s.biu.fetching with
  | none => exact streamByte_congr (fetchData_cpu s) (fetchData_bus s) (by simp [fetchedBytes, hf]) k
  | some a =>
    obtain ⟨_, haddr, ⟨_, hi⟩ | ⟨ht, _⟩⟩ := hb a hf
    · refine streamByte_append (fetchData_cpu s) (fetchData_bus s) (fetchedBytes_fetchData hf hi) fun hk => ?_
      have hlen : k = s.biu.queue.length := by simpa [fetchedBytes, hi] using hk
      rw [haddr, hp a hf, ← hlen, dispatchRead_value _ s hd]
    · simp [h2] at ht

theorem clock_streamByte {s : State} (hb : FetchOnBus s.biu) (hp : FetchPlaced s) (op : QueueOp) (v : Option Byte) {k : Nat}
    (hd : s.bus.isDevice (codeAddr s k) = false) : streamByte (s.clock op v) k = streamByte s k := by
  unfold State.clock
  split
  · rename_i hat
    have h2 : s.biu.cycle.tstate = .t2 := by
      simp only [BusCycle.fetchAtT2, Bool.and_eq_true, beq_iff_eq] at hat
      exact hat.1
    have ht : (fetchData s).biu.cycle.tstate = .t2 := by rw [fetchData_biu, h2]
    exact (streamByte_congr (s := fetchData s) (mapBiu_cpu _ _) (mapBiu_bus _ _)
      (fetchedBytes_clock_of_early (.inr ht) op v) k).trans (fetchData_streamByte hb hp h2 hd)
  · exact streamByte_congr (s := s) (mapBiu_cpu _ _) (mapBiu_bus _ _) (fetchedBytes_clock hb op v) k

theorem mayFetch_does {s : State} (h : mayFetch s = true) : s.biu.fetching = none ∧ BusFree s := by
  simp only [mayFetch, Bool.and_eq_true, Option.isNone_iff_eq_none, Bool.or_eq_true, beq_iff_eq] at h
  obtain ⟨⟨⟨⟨_, hf⟩, _⟩, _⟩, hfree⟩ := h
  exact ⟨hf, hfree⟩

/-- A code fetch launched has no byte yet. -/
theorem startFetch_streamByte {s : State} (hf : s.biu.fetching = none) (hb : BusFree s) (op : QueueOp) (v : Option Byte)
    (k : Nat) : streamByte (startFetch s op v) k = streamByte s k := by
  refine streamByte_congr (startFetch_cpu s op v) (startFetch_bus s op v) ?_ k
  have e : (startFetch s op v).biu.cycle.incoming = none := by
    change (beginCycle (fetchRequest s) s.biu.cycle).incoming = none
    rw [beginCycle_of_free hb]
    rfl
  rw [fetchedBytes_of_none hf, fetchedBytes_of_some rfl, e]
  simp

theorem euClock_streamByte {s : State} (hb : FetchOnBus s.biu) (hp : FetchPlaced s) (op : QueueOp) (v : Option Byte) {k : Nat}
    (hd : s.bus.isDevice (codeAddr s k) = false) : streamByte (euClock s op v) k = streamByte s k := by
  unfold euClock
  split
  · rename_i h
    obtain ⟨hf, hfree⟩ := mayFetch_does h
    exact startFetch_streamByte hf hfree op v k
  · exact clock_streamByte hb hp op v hd

/-! The BIU's operations as the EU uses them: CPU, bus and stream stay. -/

/-- CPU, bus and instruction stream of s are those of t. -/
structure SameStream (s t : State) : Prop where
  cpu : t.cpu = s.cpu
  bus : t.bus = s.bus
  queue : QueueOk s → QueueOk t
  byte : QueueOk s → ∀ k, s.bus.isDevice (codeAddr s k) = false → streamByte t k = streamByte s k

theorem SameStream.refl (s : State) : SameStream s s := ⟨rfl, rfl, id, fun _ _ _ => rfl⟩

theorem SameStream.trans {s t u : State} (h : SameStream s t) (j : SameStream t u) : SameStream s u :=
  ⟨j.cpu.trans h.cpu, j.bus.trans h.bus, fun q => j.queue (h.queue q), fun q k hd =>
    (j.byte (h.queue q) k (by rw [h.bus, codeAddr_congr h.cpu, hd])).trans (h.byte q k hd)⟩

theorem clock_sameStream (op : QueueOp) (v : Option Byte) (s : State) : SameStream s (s.clock op v) :=
  ⟨clock_cpu op v s, clock_bus op v s, clock_queueOk op v s, fun q _ hd =>
    clock_streamByte q.fetchOnBus q.fetchPlaced op v hd⟩

theorem euClock_sameStream (s : State) (op : QueueOp) (v : Option Byte) : SameStream s (euClock s op v) :=
  ⟨euClock_cpu s op v, euClock_bus s op v, euClock_queueOk s op v, fun q _ hd =>
    euClock_streamByte q.fetchOnBus q.fetchPlaced op v hd⟩

theorem euClocks_sameStream (n : Nat) (s : State) : SameStream s (euClocks n s) := by
  induction n generalizing s with
  | zero => exact .refl s
  | succ n ih => exact (euClock_sameStream s .idle none).trans (ih _)

theorem takeEuClocks_sameStream (s : State) : SameStream s (takeEuClocks s).2 :=
  ⟨takeEuClocks_cpu s, takeEuClocks_bus s, takeEuClocks_queueOk s, fun _ k _ =>
    streamByte_congr (takeEuClocks_cpu s) (takeEuClocks_bus s) (by rw [takeEuClocks_biu]) k⟩

theorem biuTurn_sameStream (s : State) : SameStream s (biuTurn s) :=
  (takeEuClocks_sameStream s).trans (euClocks_sameStream _ _)

theorem toData_sameStream (s : State) : SameStream s s.toData := by
  unfold State.toData
  split
  · exact (clock_sameStream .idle none s).trans (clock_sameStream .idle none _)
  · exact clock_sameStream .idle none s
  all_goals exact .refl s

theorem finishCycle_captures {c : BusCycle} (h : c.tstate = .t3 ∨ c.tstate = .tw) :
    (finishCycle c).data = c.incoming.getD c.data := by
  have e : clocksToT4 c = c.waits + 1 := by rcases h with h | h <;> simp only [clocksToT4, h, Nat.add_comm]
  rw [finishCycle, e, ticks_data c.waits c h rfl]

/-- The cycle in progress run to its end captures the byte on the bus. -/
theorem fetchedBytes_finish {b : Biu} (h : FetchOnBus b) (h1 : b.cycle.tstate ≠ .t1) (h2 : b.cycle.tstate ≠ .t2) :
    fetchedBytes (Biu.land { b with cycle := finishCycle b.cycle }) = fetchedBytes b := by
  rw [fetchedBytes_land]
  cases hf : b.fetching with
  | none => simp [fetchedBytes, hf]
  | some a =>
    obtain ⟨_, _, ⟨ht, _⟩ | ⟨ht, hi⟩⟩ := h a hf
    · exact absurd ht (not_or.mpr ⟨h1, h2⟩)
    · obtain ⟨x, hx⟩ := Option.isSome_iff_exists.mp hi
      simp [fetchedBytes_of_some hf, finishCycle_captures ht, hx]

theorem settle_sameStream (s : State) : SameStream s s.settle := by
  refine (toData_sameStream s).trans ⟨rfl, rfl, fun q => queueOk_land (s := s.toData) rfl rfl rfl rfl rfl q, fun q k _ => ?_⟩
  obtain ⟨h1, h2⟩ := toData_data s
  exact streamByte_congr (s := s.toData) (t := s.settle) rfl rfl (fetchedBytes_finish q.fetchOnBus h1 h2) k

theorem startFetch_sameStream {s : State} (hq : s.biu.queue = []) (hf : s.biu.fetching = none) (hb : BusFree s) :
    SameStream s (startFetch s) :=
  ⟨startFetch_cpu s _ _, startFetch_bus s _ _, fun q => startFetch_queueOk s _ _ q (by rw [hq]; decide) hf hb,
    fun _ k _ => startFetch_streamByte hf hb _ _ k⟩

theorem awaitByte_sameStream (s : State) : SameStream s (awaitByte s) := by
  unfold awaitByte
  split
  · rename_i he
    exact ((settle_sameStream s).trans (startFetch_sameStream (List.isEmpty_iff.mp he) rfl (settle_free s))).trans
      (settle_sameStream _)
  · exact settle_sameStream s

theorem fetchReady_sameStream (s : State) : SameStream s (fetchReady s) := by
  unfold fetchReady
  split
  · exact (biuTurn_sameStream s).trans (awaitByte_sameStream _)
  · exact biuTurn_sameStream s

/-! `fetch8` takes the first byte of the stream (21 R325). -/

/-- The head of the queue removed, with IP behind it. -/
def popped (s : State) : State := (s.mapBiu fun b => { b with queue := b.queue.drop 1 }).setIp (s.cpu.ip + 1)

/-! A clock of the BIU reads nothing of IP. -/

theorem oracleRead_setIp (s : State) (x : Word) : oracleRead (s.setIp x) = ((oracleRead s).1, (oracleRead s).2.setIp x) := by
  cases h : s.env.answers with
  | nil => simp only [oracleRead, setIp_env, h]; rfl
  | cons r rs => simp only [oracleRead, setIp_env, h]; rfl

theorem dispatchRead_setIp (a : LinAddr) (s : State) (x : Word) :
    dispatchRead a (s.setIp x) = ((dispatchRead a s).1, (dispatchRead a s).2.setIp x) := by
  rw [dispatchRead, dispatchRead, oracleRead_setIp, setIp_bus]
  split <;> rfl

theorem fetchData_setIp (s : State) (x : Word) : fetchData (s.setIp x) = (fetchData s).setIp x := by
  simp only [fetchData, setIp_biu, dispatchRead_setIp]
  rfl

theorem clock_setIp (op : QueueOp) (v : Option Byte) (s : State) (x : Word) :
    (s.setIp x).clock op v = (s.clock op v).setIp x := by
  rw [State.clock, State.clock, setIp_biu, fetchData_setIp, ← apply_ite fun t : State => t.setIp x]
  rfl

theorem euClock_setIp (s : State) (op : QueueOp) (v : Option Byte) (x : Word) :
    euClock (s.setIp x) op v = (euClock s op v).setIp x := by
  rw [euClock, euClock, clock_setIp, show startFetch (s.setIp x) op v = (startFetch s op v).setIp x from rfl,
    ← apply_ite fun t : State => t.setIp x]
  rfl

theorem fetch8_eq_popped (s : State) : ∃ q qs op v, (fetchReady s).biu.queue = q :: qs ∧
    fetch8 s = (q.byte, euClock (popped (fetchReady s)) op v) := by
  obtain ⟨q, qs, op, hq, h⟩ := fetch8_eq s
  exact ⟨q, qs, op, _, hq, by rw [h, takeByte, ← euClock_setIp]; rfl⟩

theorem ip_add_one_add (x : Word) (k : Nat) : x + 1 + BitVec.ofNat 16 k = x + BitVec.ofNat 16 (k + 1) := by
  rw [BitVec.add_assoc, BitVec.ofNat_add, BitVec.add_comm (1 : Word)]
  rfl

theorem popped_codeAddr (s : State) (k : Nat) : codeAddr (popped s) k = codeAddr s (k + 1) := by
  rw [codeAddr, codeAddr, ← ip_add_one_add]
  rfl

theorem popped_streamByte {s : State} {q : QueueByte} {qs : List QueueByte} (h : s.biu.queue = q :: qs) (k : Nat) :
    streamByte (popped s) k = streamByte s (k + 1) := by
  have hf : fetchedBytes s.biu = q.byte :: fetchedBytes (popped s).biu := by simp [fetchedBytes, popped, h]
  cases e : (fetchedBytes (popped s).biu)[k]? with
  | some v => rw [streamByte_of_fetched e, streamByte_of_fetched (v := v) (by rw [hf, List.getElem?_cons_succ, e])]
  | none =>
    rw [streamByte_of_memory e, streamByte_of_memory (s := s) (by rw [hf, List.getElem?_cons_succ, e]), popped_codeAddr]
    rfl

theorem popped_fetchPlaced {s : State} (h : FetchPlaced s) {q : QueueByte} {qs : List QueueByte} (hq : s.biu.queue = q :: qs) :
    FetchPlaced (popped s) := by
  intro a ha
  have e : s.biu.queue.length = (popped s).biu.queue.length + 1 := by simp [popped, hq]
  rw [popped_codeAddr, ← e]
  exact h a ha

theorem fetch8_codeAddr (s : State) (k : Nat) : codeAddr (fetch8 s).2 k = codeAddr s (k + 1) := by
  rw [codeAddr, fetch8_cpu, codeAddr, ← ip_add_one_add]
  rfl

theorem fetch8_value {s : State} (h : QueueOk s) (hd : s.bus.isDevice (codeAddr s 0) = false) :
    (fetch8 s).1 = streamByte s 0 := by
  obtain ⟨q, qs, op, v, hq, e⟩ := fetch8_eq_popped s
  rw [e, ← (fetchReady_sameStream s).byte h 0 hd]
  exact (streamByte_of_fetched (by simp [fetchedBytes, hq])).symm

theorem fetch8_streamByte {s : State} (h : QueueOk s) {k : Nat} (hd : s.bus.isDevice (codeAddr s (k + 1)) = false) :
    streamByte (fetch8 s).2 k = streamByte s (k + 1) := by
  obtain ⟨q, qs, op, v, hq, e⟩ := fetch8_eq_popped s
  have hr := fetchReady_sameStream s
  have hready := hr.queue h
  have hdev : (popped (fetchReady s)).bus.isDevice (codeAddr (popped (fetchReady s)) k) = false := by
    rw [popped_codeAddr, codeAddr_congr hr.cpu, ← hd, ← hr.bus]
    rfl
  rw [e]
  calc streamByte (euClock (popped (fetchReady s)) op v) k
    _ = streamByte (popped (fetchReady s)) k :=
      euClock_streamByte (s := popped (fetchReady s)) hready.fetchOnBus (popped_fetchPlaced hready.fetchPlaced hq) op v hdev
    _ = streamByte (fetchReady s) (k + 1) := popped_streamByte hq k
    _ = streamByte s (k + 1) := hr.byte h (k + 1) hd

/-! Bytes taken until they decode (30 R428). -/

theorem awaitByte_effect (s : State) : Effect s (awaitByte s) s.cpu s.bus [] := by
  unfold awaitByte
  split
  · simpa using ((settle_effect s).trans (startFetch_effect s.settle .idle none)).trans (settle_effect _)
  · exact settle_effect s

theorem fetchReady_effect (s : State) : Effect s (fetchReady s) s.cpu s.bus [] := by
  unfold fetchReady
  split
  · simpa using (biuTurn_effect s).trans (awaitByte_effect (biuTurn s))
  · exact biuTurn_effect s

theorem fetch8_frame (s : State) : Frame s (fetch8 s).2 [] := by
  obtain ⟨q, qs, op, v, _, e⟩ := fetch8_eq_popped s
  have hready : Frame s (fetchReady s) [] := (fetchReady_effect s).frame
  have hpopped : Frame (fetchReady s) (popped (fetchReady s)) [] := .of_eq rfl rfl rfl rfl rfl rfl
  rw [e]
  exact (hready.trans hpopped).trans (euClock_effect _ op v).frame

theorem fetched_of_fetch8 {n : Nat} {s u : State} (h : Fetched n (fetch8 s).2 u) : Fetched (n + 1) s u := by
  obtain ⟨hcpu, hdev, hframe, hb, ha⟩ := h
  refine ⟨?_, hdev.trans (fetch8_dev s), (fetch8_frame s).trans hframe, hb, ha⟩
  rw [hcpu, fetch8_cpu, ← ip_add_one_add]
  rfl

theorem fetched_zero {s : State} (h : QueueOk s) : Fetched 0 s s :=
  ⟨by rw [show s.cpu.ip + BitVec.ofNat 16 0 = s.cpu.ip from BitVec.add_zero _]; rfl, rfl, .refl s, h.1, h.2⟩

/-- The instruction stream begins with the bytes, none of them in a device's granule. -/
def StreamsFrom (s : State) (bs : List Byte) : Prop :=
  ∀ k v, bs[k]? = some v → s.bus.isDevice (codeAddr s k) = false ∧ streamByte s k = v

theorem StreamsFrom.head {s : State} {b : Byte} {bs : List Byte} (h : StreamsFrom s (b :: bs)) (q : QueueOk s) :
    (fetch8 s).1 = b := by
  obtain ⟨hd, hv⟩ := h 0 b rfl
  rw [fetch8_value q hd, hv]

theorem StreamsFrom.tail {s : State} {b : Byte} {bs : List Byte} (h : StreamsFrom s (b :: bs)) (q : QueueOk s) :
    StreamsFrom (fetch8 s).2 bs := by
  intro k v hk
  obtain ⟨hd, hv⟩ := h (k + 1) v (by rw [List.getElem?_cons_succ, hk])
  exact ⟨by rw [fetch8_bus, fetch8_codeAddr, hd], by rw [fetch8_streamByte q hd, hv]⟩

/-- Of bytes that decode to the last, the loop takes all: no fewer of them decode. -/
theorem fetchLoop_takes {i : Instr} (bs : List Byte) : ∀ (n : Nat) (pre : List Byte) (s : State), bs ≠ [] →
    bs.length ≤ n → QueueOk s → StreamsFrom s bs → decode (pre ++ bs) = .ok (i, []) →
    ∃ u, fetchLoop n pre s = some (i, u) ∧ Fetched bs.length s u := by
  induction bs with
  | nil => exact fun _ _ _ h => absurd rfl h
  | cons b bs ih =>
    intro n pre s _ hn q hs hdec
    obtain ⟨n, rfl⟩ : ∃ m, n = m + 1 := ⟨n - 1, by rw [List.length_cons] at hn; omega⟩
    have hb := hs.head q
    have hq := fetch8_queueOk s q
    rw [List.append_cons] at hdec
    cases bs with
    | nil =>
      rw [List.append_nil] at hdec
      exact ⟨(fetch8 s).2, by simp only [fetchLoop, hb, hdec], fetched_of_fetch8 (fetched_zero hq)⟩
    | cons c bs =>
      have herr := decode_proper_prefix hdec (List.cons_ne_nil c bs)
      obtain ⟨u, hu, hf⟩ := ih n (pre ++ [b]) (fetch8 s).2 (List.cons_ne_nil c bs) (Nat.le_of_succ_le_succ hn) hq
        (hs.tail q) hdec
      exact ⟨u, by simp only [fetchLoop, hb, herr, hu], fetched_of_fetch8 hf⟩

theorem streamsFrom_of_stream {s : State} (h : PlainCode s) {bs rest : List Byte} (hs : stream s = bs ++ rest) :
    StreamsFrom s bs := by
  intro k v hk
  have hk' : (stream s)[k]? = some v := by
    rw [hs, List.getElem?_append_left (List.getElem?_eq_some_iff.mp hk).1, hk]
  obtain ⟨hlen, e⟩ := List.getElem?_eq_some_iff.mp hk'
  have hlt : k < 6 := by simpa [stream] using hlen
  simp only [stream, List.getElem_map, List.getElem_range] at e
  exact ⟨h k hlt, e⟩

/-- Where the next bytes decode to i, the fetch takes i's bytes (30 R428, 21 R325). -/
theorem fetchInstr_of_stream {s : State} (hq : QueueOk s) (hp : PlainCode s) {i : Instr} {rest : List Byte}
    (h : decode (stream s) = .ok (i, rest)) : ∃ u, fetchInstr s = some (i, u) ∧ Fetched (6 - rest.length) s u := by
  obtain ⟨bs, hbs, hdec⟩ := decode_takesPrefix _ _ _ h
  have hlen : 6 = bs.length + rest.length := by
    rw [← List.length_append, ← hbs, stream, List.length_map, List.length_range]
  have hi := hdec []
  rw [List.append_nil] at hi
  have hne : bs ≠ [] := by
    rintro rfl
    cases hi
  obtain ⟨u, hu, hf⟩ := fetchLoop_takes bs maxInstrBytes [] s hne (by rw [maxInstrBytes]; omega) hq
    (streamsFrom_of_stream hp hbs) hi
  exact ⟨u, hu, by rw [hlen, Nat.add_sub_cancel]; exact hf⟩

theorem runInstruction_succ {s u : State} {i : Instr} (h : fetchInstr s = some (i, u)) (n : Nat) :
    runInstruction (n + 1) s = afterRow n i (exec i u) := by
  rw [runInstruction, h]
  dsimp only
  cases exec i u <;> rfl

/-- Settles O39: the step from its CPU step, the mark through every CPU step but the loop over prefixes, and the row that the stream
decodes to. -/
theorem stepRunsDecoded : Obligations.StepRunsDecoded := by
  unfold Obligations.StepRunsDecoded
  refine ⟨fun s => ⟨fun t h hd => ?_, fun t h hd => ?_, fun f h => ?_, fun r h => ?_⟩, fun s t => cpuStep_decoding,
    fun s h he => ?_, fun s h hd => ?_, fun s => ⟨rfl, congrArg _ (afterCpuStep_of_decoding rfl)⟩,
    fun n s i rest hb ha hp h => ?_⟩
  · rw [step_eq_thenSchedule, h, thenSchedule, afterCpuStep_of_not_decoding hd]
  · rw [step_eq_thenSchedule, h, thenSchedule, afterCpuStep_of_decoding hd]
  · rw [step_eq_thenSchedule, h, thenSchedule]
  · rw [step_eq_thenSchedule, h, thenSchedule]
  · rw [step_eq_thenSchedule, cpuStep_of_active h.1, h.2, he]
    rfl
  · rw [step_eq_thenSchedule, cpuStep_of_active h, hd]
    rfl
  · obtain ⟨u, hu, hf⟩ := fetchInstr_of_stream ⟨hb, ha⟩ hp h
    exact ⟨u, hf, runInstruction_succ hu n⟩

end Sys2Proof.Machine

/-! Data transfer (40_data_transfer): what each shared form of moves, the stack, exchanges and
address loads leaves. -/

namespace Sys2Proof.Machine

open Sys2Proof.Claims

/-! Moves (40 R601 to R608, R626). -/

/-- A byte register changed after an effect. -/
theorem Effect.put8 {s u : State} {c : Cpu} {b : Bus} {x : List LinAddr} (h : Effect s u c b x) (r : Reg8) (v : Byte) :
    Effect s (u.setReg8 r v) (c.put8 r v) b x :=
  h.mapCpu fun c => c.put8 r v

/-- A word register changed after an effect. -/
theorem Effect.put16 {s u : State} {c : Cpu} {b : Bus} {x : List LinAddr} (h : Effect s u c b x) (r : Reg16) (v : Word) :
    Effect s (u.setReg16 r v) (c.put16 r v) b x :=
  h.mapCpu fun c => c.put16 r v

/-- A segment register changed after an effect. -/
theorem Effect.putSeg {s u : State} {c : Cpu} {b : Bus} {x : List LinAddr} (h : Effect s u c b x) (r : Sreg) (v : Word) :
    Effect s (u.setSeg r v) (c.putSeg r v) b x :=
  h.mapCpu fun c => c.putSeg r v

theorem writeRM8_effect (e : RM8) (v : Byte) (s : State) :
    Effect s (writeRM8 e v s) (cpuPut8 e v s.cpu) (busPut8 s e v) (cells8 s e) :=
  writeLoc8_effect e v s s rfl rfl

theorem writeRM16_effect (e : RM16) (v : Word) (s : State) :
    Effect s (writeRM16 e v s) (cpuPut16 e v s.cpu) (busPut16 s e v) (cells16 s e) :=
  writeLoc16_effect e v s s rfl rfl

theorem loadReg8_effect (g : Reg8) (e : RM8) (s : State) :
    ∃ v, OpByte s e v ∧ Effect s (loadReg8 g e s) (s.cpu.put8 g v) s.bus [] :=
  have ⟨hv, h⟩ := readRM8_effect e s
  ⟨_, hv, h.put8 g _⟩

theorem loadReg16_effect (g : Reg16) (e : RM16) (s : State) :
    ∃ v, OpWord s e v ∧ Effect s (loadReg16 g e s) (s.cpu.put16 g v) s.bus [] :=
  have ⟨hv, h⟩ := readRM16_effect e s
  ⟨_, hv, h.put16 g _⟩

theorem loadSeg_effect (r : Sreg) (e : RM16) (s : State) :
    ∃ v, OpWord s e v ∧ Effect s (loadSeg r e s) (s.cpu.putSeg r v) s.bus [] :=
  have ⟨hv, h⟩ := readRM16_effect e s
  ⟨_, hv, h.putSeg r _⟩

/-- Settles O19: a destination operand is written from the state itself, a register after the read of its source. -/
theorem movForms : Obligations.MovForms := by
  unfold Obligations.MovForms
  refine fun s => ⟨fun e g => ⟨_, rfl, writeRM8_effect e _ s⟩, fun e g => ⟨_, rfl, writeRM16_effect e _ s⟩, fun g e => ?_,
    fun g e => ?_, fun r i => ⟨_, rfl, setReg8_effect r i s⟩, fun r i => ⟨_, rfl, setReg16_effect r i s⟩,
    fun e i => ⟨_, rfl, writeRM8_effect e i s⟩, fun e i => ⟨_, rfl, writeRM16_effect e i s⟩⟩
  · obtain ⟨v, hv, h⟩ := loadReg8_effect g e s
    exact ⟨v, _, hv, rfl, h⟩
  · obtain ⟨v, hv, h⟩ := loadReg16_effect g e s
    exact ⟨v, _, hv, rfl, h⟩

/-- Settles O20: a store is the write of the operand, whatever segment register it reads; each load is `loadSeg` of its own register. -/
theorem movSegmentForms : Obligations.MovSegmentForms := by
  unfold Obligations.MovSegmentForms
  refine fun s => ⟨fun e r => ⟨_, rfl, writeRM16_effect e _ s⟩, fun e => ?_, fun e => ?_, fun e => ?_⟩
  · obtain ⟨v, hv, h⟩ := loadSeg_effect .es e s
    exact ⟨v, _, hv, rfl, h⟩
  · obtain ⟨v, hv, h⟩ := loadSeg_effect .ss e s
    exact ⟨v, _, hv, rfl, h⟩
  · obtain ⟨v, hv, h⟩ := loadSeg_effect .ds e s
    exact ⟨v, _, hv, rfl, h⟩

/-- Settles O21: each form is one access in the override's segment or DS, a read followed by the write of AL or AX. -/
theorem moffsXlatForms : Obligations.MoffsXlatForms := by
  unfold Obligations.MoffsXlatForms
  intro s base
  refine ⟨fun off => ?_, fun off => ?_, fun off => ⟨_, rfl, writeByteAt_effect _ base off _ s⟩,
    fun off => ⟨_, rfl, writeWordAt_effect _ base off _ s⟩, ?_⟩
  · have ⟨hv, h⟩ := readByteAt_effect (accessOf (s.segOr .ds)) base off s
    exact ⟨_, _, hv, rfl, h.put8 .al _⟩
  · have ⟨hv, h⟩ := readWordAt_effect (accessOf (s.segOr .ds)) base off s
    exact ⟨_, _, hv, rfl, h.put16 .ax _⟩
  · have ⟨hv, h⟩ := readByteAt_effect (accessOf (s.segOr .ds)) base (s.reg16 .bx + zext16 (s.reg8 .al)) s
    exact ⟨_, _, hv, rfl, h.put8 .al _⟩

/-! The stack (40 R610 to R617). -/

theorem pushReg_pushed (r : Reg16) (s : State) :
    Pushed (if r = .sp then s.reg16 .sp - 2 else s.reg16 r) s (pushReg r s) :=
  push_effect _ s

/-- A push after an operand has been read. -/
theorem Effect.push {s u : State} (h : Effect s u s.cpu s.bus []) (v : Word) : Pushed v s (push v u) := by
  have k := h.trans (push_effect v u)
  rwa [State.reg16, State.seg, h.1, h.2.1] at k

/-- Settles O22: every form is `push` of its value, a memory operand read before SP moves. -/
theorem pushForms : Obligations.PushForms := by
  unfold Obligations.PushForms
  refine fun s => ⟨fun r => ⟨_, rfl, pushReg_pushed r s⟩, ⟨_, rfl, push_effect _ s⟩, ⟨_, rfl, push_effect _ s⟩,
    ⟨_, rfl, push_effect _ s⟩, ⟨_, rfl, push_effect _ s⟩, fun r => ⟨_, rfl, pushReg_pushed r s⟩, fun m => ?_,
    ⟨_, rfl, push_effect _ s⟩⟩
  obtain ⟨hv, h⟩ := readRM16_effect (.mem m) s
  exact ⟨_, _, hv, rfl, h.push _⟩

/-- A word operand stands where it stood before the pop: no addressing mode uses SP (30 R421). -/
theorem locate16_pop (e : RM16) (s : State) : locate16 e (pop s).2 = locate16 e s := by
  cases e with
  | reg r => rfl
  | mem m =>
    have hseg : effSeg m (pop s).2 = effSeg m s := effSeg_congr (by rw [pop_cpu, put16_pfx]) m
    have haddr : effAddr m (pop s).2 = effAddr m s :=
      (effAddr_congr (s := s.setReg16 .sp (s.reg16 .sp + 2)) (by rw [pop_cpu, setReg16_cpu]) m).trans
        (effAddr_put16_sp m _ s)
    rw [locate16, locate16, hseg, haddr]

theorem popOperand_effect (e : RM16) (s : State) :
    Effect s (popOperand e s) (cpuPut16 e (pop s).1 (popCpu s)) (busPut16 s e (pop s).1) (cells16 s e) := by
  obtain ⟨_, h⟩ := pop_effect s
  have k := h.trans (writeLoc16_effect e (pop s).1 s (pop s).2 (pop_bus s) (by rw [pop_cpu, put16_segs]))
  rwa [pop_cpu, ← locate16_pop] at k

/-- Settles O23: every form is `pop`, then the write of its destination. -/
theorem popForms : Obligations.PopForms := by
  unfold Obligations.PopForms
  intro s
  obtain ⟨hv, h⟩ := pop_effect s
  exact ⟨fun r => ⟨_, _, hv, rfl, h.put16 r _⟩, ⟨_, _, hv, rfl, h.putSeg .es _⟩, ⟨_, _, hv, rfl, h.putSeg .ss _⟩,
    ⟨_, _, hv, rfl, h.putSeg .ds _⟩, fun e => ⟨_, _, hv, rfl, popOperand_effect e s⟩,
    ⟨_, _, hv, exec_popf s, h.mapCpu fun c => c.putFlags (flagsOfWord (pop s).1)⟩⟩

/-! XCHG (40 R620, R621). -/

theorem exchange8_effect (e : RM8) (g : Reg8) (s : State) : ∃ a, OpByte s e a ∧ Effect s (exchange8 e g s)
    (cpuPut8 e (s.reg8 g) (s.cpu.put8 g a)) (busPut8 s e (s.reg8 g)) (cells8 s e) := by
  obtain ⟨ha, h⟩ := readLoc8_effect e s
  have hput := h.put8 g (readLoc8 (locate8 e s) s).1
  have hwrite := writeLoc8_effect e (s.reg8 g) s _ hput.2.1 (by rw [hput.1]; rfl)
  rw [hput.1] at hwrite
  refine ⟨_, ha, ?_⟩
  rw [exchange8, reg8_of_cpu h.1]
  exact hput.trans hwrite

theorem exchange16_effect (e : RM16) (g : Reg16) (s : State) : ∃ a, OpWord s e a ∧ Effect s (exchange16 e g s)
    (cpuPut16 e (s.reg16 g) (s.cpu.put16 g a)) (busPut16 s e (s.reg16 g)) (cells16 s e) := by
  obtain ⟨ha, h⟩ := readLoc16_effect e s
  have hput := h.put16 g (readLoc16 (locate16 e s) s).1
  have hwrite := writeLoc16_effect e (s.reg16 g) s _ hput.2.1 (by rw [hput.1]; rfl)
  rw [hput.1] at hwrite
  refine ⟨_, ha, ?_⟩
  rw [exchange16, reg16_of_cpu h.1]
  exact hput.trans hwrite

/-- Settles O25: the operand is read, then the register and the operand are written with the values of before. -/
theorem xchgForms : Obligations.XchgForms := by
  unfold Obligations.XchgForms
  refine fun s => ⟨fun e g => ?_, fun e g => ?_, fun r => ⟨_, rfl, (setReg16_effect .ax _ s).put16 r _⟩⟩
  · obtain ⟨a, ha, h⟩ := exchange8_effect e g s
    exact ⟨a, _, ha, rfl, h⟩
  · obtain ⟨a, ha, h⟩ := exchange16_effect e g s
    exact ⟨a, _, ha, rfl, h⟩

/-! Address loads (40 R627 to R629). -/

/-- A word read after an effect on neither CPU nor bus. -/
theorem Effect.readWord {s u : State} (h : Effect s u s.cpu s.bus []) (r : Sreg) (off : Word) :
    ReadsWord s.bus (s.seg r) off (segRead16 r off u).1 ∧ Effect s (segRead16 r off u).2 s.cpu s.bus [] := by
  have hread : segRead16 r off u = readWordAt (accessOf r) (s.seg r) off u := by rw [segRead16, seg_of_cpu h.1]
  obtain ⟨hv, k⟩ := readWordAt_effect (accessOf r) (s.seg r) off u
  have hk := h.trans k
  rw [h.2.1] at hv
  rw [h.1, h.2.1] at hk
  rw [hread]
  exact ⟨hv, hk⟩

/-- A far pointer is read as its two words (30 R426), neither read changing what the other finds. -/
theorem readFarPtr_effect (m : Mem) (s : State) : FarPointer s m (readFarPtr m s).1.1 (readFarPtr m s).1.2 ∧
    Effect s (readFarPtr m s).2 s.cpu s.bus [] := by
  obtain ⟨hoff, h⟩ := (Effect.refl s).readWord (effSeg m s) (effAddr m s)
  obtain ⟨hsel, h'⟩ := h.readWord (effSeg m s) (effAddr m s + 2)
  simp only [readFarPtr]
  exact ⟨⟨hoff, hsel⟩, h'⟩

theorem loadFarPtr_effect (r : Sreg) (g : Reg16) (m : Mem) (s : State) : ∃ o sel, FarPointer s m o sel ∧
    Effect s (loadFarPtr r g m s) ((s.cpu.put16 g o).putSeg r sel) s.bus [] :=
  have ⟨hptr, h⟩ := readFarPtr_effect m s
  ⟨_, _, hptr, (h.put16 g _).putSeg r _⟩

/-- Settles O27: LEA is one register write, which records no access; LDS and LES are `loadFarPtr` of DS and of ES. -/
theorem addressLoadForms : Obligations.AddressLoadForms := by
  unfold Obligations.AddressLoadForms
  refine fun s g m => ⟨⟨_, rfl, setReg16_effect g _ s, rfl⟩, ?_, ?_⟩
  · obtain ⟨o, sel, hptr, h⟩ := loadFarPtr_effect .ds g m s
    exact ⟨o, sel, _, hptr, rfl, h⟩
  · obtain ⟨o, sel, hptr, h⟩ := loadFarPtr_effect .es g m s
    exact ⟨o, sel, _, hptr, rfl, h⟩

end Sys2Proof.Machine

/-! Ports (40 R622 to R625, 20 R230): what an IO access leaves, devices included, and what the port map says of its byte. -/

namespace Sys2Proof.Claims

open Sys2Proof.Machine

/-! IO effects compose: memory stays, the devices are those of the last. -/

theorem IoEffect.of_effect {s t : State} {c : Cpu} (h : Effect s t c s.bus []) : IoEffect s t c s.dev := h

theorem IoEffect.trans {s t u : State} {c : Cpu} {d d' : Devices} (h : IoEffect s t c d) (k : IoEffect t u t.cpu d') :
    IoEffect s u c d' := by
  obtain ⟨hcpu, hbus, _, hqueue, hframe⟩ := h
  obtain ⟨kcpu, kbus, kdev, kqueue, kframe⟩ := k
  exact ⟨kcpu.trans hcpu, kbus.trans hbus, kdev, hqueue.trans kqueue, hframe.trans kframe⟩

/-- What follows an IO effect and leaves CPU and devices. -/
theorem IoEffect.quiet {s t u : State} {c : Cpu} {d : Devices} (h : IoEffect s t c d) (k : Effect t u t.cpu t.bus []) :
    IoEffect s u c d := by
  have ⟨_, _, hdev, _, _⟩ := h
  rw [← hdev]
  exact h.trans (.of_effect k)

/-- The CPU changed after an IO effect. -/
theorem IoEffect.mapCpu {s t : State} {c : Cpu} {d : Devices} (h : IoEffect s t c d) (f : Cpu → Cpu) :
    IoEffect s (t.mapCpu f) (f c) d := by
  obtain ⟨hcpu, hbus, hdev, hqueue, hframe⟩ := h
  obtain ⟨_, _, _, kqueue, kframe⟩ := mapCpu_effect f t
  exact ⟨congrArg f hcpu, hbus, hdev, hqueue.trans kqueue, hframe.trans kframe⟩

/-! What the port map says of a byte (61 R1301). -/

theorem portValue_of_portReads {d d' : Devices} {q : Params} {env : BitVec 4} {p : Word} {v : Byte}
    (h : PortReads d q env p v d') : PortValue q p v d d' := by
  obtain ⟨u, rfl, rfl, _, rfl, rfl⟩ := h
  refine ⟨fun hp => ?_, ?_, ?_⟩
  · rw [portRead, hp]
    exact ⟨rfl, rfl⟩
  · rintro rfl
    exact ⟨rfl, rfl⟩
  · rintro ⟨rfl, hready⟩
    have hread : portRead 0x21 u = plainAnswer (picPortRead true u) := rfl
    rw [hread, picPortRead, if_neg (by rw [hready]; decide)]
    exact ⟨rfl, rfl⟩

theorem portTakes_of_portWrites {d d' : Devices} {q : Params} {p : Word} {v : Byte} (h : PortWrites d q p v d') :
    PortTakes q p v d d' := by
  obtain ⟨u, rfl, rfl, rfl⟩ := h
  refine ⟨fun hp => ?_, ?_, ?_⟩
  · rw [portWrite, hp]
  · rintro rfl
    rfl
  · rintro rfl
    exact ⟨rfl, rfl⟩

/-! Reads. -/

/-- The environment's lines stay at a port read: an oracle's answer is taken from a list of its own. -/
theorem portRead_lines (p : Word) (s : State) : (portRead p s).2.env.ir = s.env.ir ∧
    (portRead p s).2.env.nmiSource = s.env.nmiSource ∧ (portRead p s).2.env.dreq = s.env.dreq := by
  unfold portRead
  cases portUse s.params.oraclePorts p with
  | pic a0 =>
    unfold picPortRead plainAnswer
    dsimp only
    split <;> exact ⟨rfl, rfl, rfl⟩
  | pitCounter i =>
    unfold pitRead plainAnswer
    dsimp only
    split <;> split <;> exact ⟨rfl, rfl, rfl⟩
  | oracle => exact oracleRead_lines s
  | _ => exact ⟨rfl, rfl, rfl⟩

theorem portRead_ioEffect (p : Word) (s : State) : IoEffect s (portRead p s).2 s.cpu (portRead p s).2.dev := by
  obtain ⟨hcpu, hbus, hbiu, hparams, hmarks⟩ := portRead_fields p s
  obtain ⟨hir, hnmi, hdreq⟩ := portRead_lines p s
  exact ⟨hcpu, hbus, rfl, ⟨by rw [hbiu], [], by rw [hbiu, List.append_nil]⟩, .of_eq hbus hparams hmarks hir hnmi hdreq⟩

/-- `IORead(port, 1)`: the port's byte, with the device's side effects. -/
theorem ioReadByte_reads (p : Word) (s : State) : ∃ d, PortReads s.dev s.params s.env.dreq p (ioReadByte p s).1 d ∧
    IoEffect s (ioReadByte p s).2 s.cpu d := by
  have hbegin : IoEffect s _ s.cpu s.dev := (IoEffect.of_effect (biuTurn_effect s)).quiet
    (openCycle_effect { kind := .ioRead, access := .code, addr := p.setWidth 20, data := none } (biuTurn s))
  have ⟨_, _, hdev, _, hframe⟩ := hbegin
  exact ⟨_, ⟨_, hdev, hframe.params, hframe.dreq, rfl, rfl⟩,
    (((hbegin.trans (portRead_ioEffect p _)).quiet (holdData_effect _ _ _)).quiet (record_effect _ _)).quiet (biuTurn_effect _)⟩

theorem inByte_effect (p : Word) (s : State) : InByte p s (inByte p s) := by
  obtain ⟨d, hread, h⟩ := ioReadByte_reads p s
  exact ⟨_, d, hread, portValue_of_portReads hread, h.mapCpu fun c => c.put8 .al (ioReadByte p s).1⟩

theorem inWord_effect (p : Word) (s : State) : InWord p s (inWord p s) := by
  obtain ⟨d, hlo, h⟩ := ioReadByte_reads p s
  obtain ⟨d', hhi, h'⟩ := ioReadByte_reads (p + 1) (ioReadByte p s).2
  have ⟨_, _, hdev, _, hframe⟩ := h
  rw [hdev, hframe.params, hframe.dreq] at hhi
  exact ⟨_, _, d, d', hlo, portValue_of_portReads hlo, hhi, portValue_of_portReads hhi,
    (h.trans h').mapCpu fun c => c.put16 .ax (ioReadWord p s).1⟩

/-! Writes. -/

theorem oracleWrite_effect (s : State) : Effect s (oracleWrite s).2 s.cpu s.bus [] := by
  obtain ⟨hir, hnmi, hdreq⟩ := oracleWrite_lines s
  exact ⟨oracleWrite_cpu s, oracleWrite_bus s, oracleWrite_dev s,
    ⟨by rw [oracleWrite_biu], [], by rw [oracleWrite_biu, List.append_nil]⟩,
    .of_eq (oracleWrite_bus s) (oracleWrite_params s) (oracleWrite_marks s) hir hnmi hdreq⟩

theorem portWriteWaits_effect (p : Word) (s : State) : Effect s (portWriteWaits p s).2 s.cpu s.bus [] := by
  unfold portWriteWaits
  split
  · exact oracleWrite_effect s
  · exact Effect.refl s

theorem portWrite_ioEffect (p : Word) (v : Byte) (s : State) : IoEffect s (portWrite p v s) s.cpu (portWrite p v s).dev := by
  obtain ⟨hcpu, hbus, hbiu, hparams, hmarks, henv, _⟩ := portWrite_fields p v s
  exact ⟨hcpu, hbus, rfl, ⟨by rw [hbiu], [], by rw [hbiu, List.append_nil]⟩,
    .of_eq hbus hparams hmarks (by rw [henv]) (by rw [henv]) (by rw [henv])⟩

/-- The data phase writes the device (21 R302). -/
theorem portData_writes (p : Word) (v : Byte) (op : QueueOp) (s : State) : ∃ d, PortWrites s.dev s.params p v d ∧
    IoEffect s (portData p v op s) s.cpu d := by
  have hbegin : IoEffect s _ s.cpu s.dev := ((IoEffect.of_effect (portWriteWaits_effect p s)).quiet
    (writeData_effect op (portWriteWaits p s).1 _)).quiet (record_effect (.ioWrite p v) _)
  have ⟨_, _, hdev, _, hframe⟩ := hbegin
  exact ⟨_, ⟨_, hdev, hframe.params, rfl⟩, hbegin.trans (portWrite_ioEffect p v _)⟩

/-- `IOWrite(port, 1, v)`: the device takes the byte. -/
theorem ioWriteByte_writes (p : Word) (v : Byte) (s : State) : ∃ d, PortWrites s.dev s.params p v d ∧
    IoEffect s (ioWriteByte p v s) s.cpu d := by
  let u := (biuTurn s).beginCycle { kind := .ioWrite, access := .code, addr := p.setWidth 20, data := some v }
  have hbegin : IoEffect s ((takeEuClocks u).2.clock .idle none) s.cpu s.dev :=
    (((IoEffect.of_effect (biuTurn_effect s)).quiet (beginCycle_effect _ _)).quiet (takeEuClocks_effect u)).quiet
      (clock_effect .idle none _)
  obtain ⟨d, hwrite, h⟩ := portData_writes p v .idle ((takeEuClocks u).2.clock .idle none)
  have ⟨_, _, hdev, _, hframe⟩ := hbegin
  rw [hdev, hframe.params] at hwrite
  exact ⟨d, hwrite, (hbegin.trans h).quiet (euClocks_effect _ _)⟩

theorem outByte_effect (p : Word) (v : Byte) (s : State) : OutByte p v s (ioWriteByte p v s) := by
  obtain ⟨d, hwrite, h⟩ := ioWriteByte_writes p v s
  exact ⟨d, hwrite, portTakes_of_portWrites hwrite, h⟩

theorem outWord_effect (p v : Word) (s : State) : OutWord p v s (ioWriteWord p v s) := by
  obtain ⟨d, hlo, h⟩ := ioWriteByte_writes p (loByte v) s
  obtain ⟨d', hhi, h'⟩ := ioWriteByte_writes (p + 1) (hiByte v) (ioWriteByte p (loByte v) s)
  have ⟨_, _, hdev, _, hframe⟩ := h
  rw [hdev, hframe.params] at hhi
  exact ⟨d, d', hlo, portTakes_of_portWrites hlo, hhi, portTakes_of_portWrites hhi, h.trans h'⟩

/-- Settles O26: IN is one or two port reads, then the write of AL or AX; OUT one or two port writes. -/
theorem inOutForms : Obligations.InOutForms := by
  unfold Obligations.InOutForms
  exact fun s => ⟨fun i => ⟨_, rfl, inByte_effect _ s⟩, fun i => ⟨_, rfl, inWord_effect _ s⟩, ⟨_, rfl, inByte_effect _ s⟩,
    ⟨_, rfl, inWord_effect _ s⟩, fun i => ⟨_, rfl, outByte_effect _ _ s⟩, fun i => ⟨_, rfl, outWord_effect _ _ s⟩,
    ⟨_, rfl, outByte_effect _ _ s⟩, ⟨_, rfl, outWord_effect _ _ s⟩⟩

end Sys2Proof.Claims

/-! Arithmetic (41_arithmetic): the flags of additions and subtractions in the spec's arithmetic, the forms of the ALU, of one
operand, of multiplication and division, the decimal adjusts, and the undocumented rows. -/

namespace Sys2Proof.Machine

open Sys2Proof.Claims

variable {w : Nat}

/-! Sign, zero, parity (41 R700). -/

theorem popCount_eq_countP (x : Byte) (n : Nat) : popCount x n = (List.range n).countP (x.getLsbD ·) := by
  induction n with
  | zero => rfl
  | succ n ih => simp [popCount, ih, List.range_succ, List.countP_append, List.countP_singleton]

/-- PF counts the ones of bits 7 to 0 of the result, whatever its width. -/
theorem szp_pf (f : Flags) (r : BitVec w) : (f.szp r).pf = ((List.range 8).countP (r.getLsbD ·) % 2 == 0) := by
  have hcount : popCount (r.setWidth 8) 8 = (List.range 8).countP (r.getLsbD ·) := by
    rw [popCount_eq_countP]
    refine List.countP_congr fun i hi => ?_
    rw [BitVec.getLsbD_setWidth, decide_eq_true (List.mem_range.1 hi), Bool.true_and]
  simp only [Flags.szp, evenParity, hcount]

theorem szp_zf (f : Flags) (r : BitVec w) : (f.szp r).zf = true ↔ r = 0 := beq_iff_eq

theorem szp_sf (f : Flags) (r : BitVec w) : (f.szp r).sf = r.getLsbD (w - 1) := BitVec.msb_eq_getLsbD_last r

/-- Settles O4, from the three flags at any width. -/
theorem signZeroParity : Obligations.SignZeroParity := by
  unfold Obligations.SignZeroParity
  exact ⟨fun f r => ⟨szp_sf f r, szp_zf f r, szp_pf f r⟩, fun f r => ⟨szp_sf f r, szp_zf f r, szp_pf f r⟩⟩

/-! Addition (41 R701, 10 R122). -/

theorem bitNat_le_one (c : Bool) : bitNat c ≤ 1 := by cases c <;> decide

theorem addResult_toNat (a b : BitVec w) (c : Bool) : (addResult a b c).toNat = (a.toNat + b.toNat + bitNat c) % 2 ^ w :=
  BitVec.toNat_ofNat ..

/-- The bit i of a sum differs from those of the operands where the digits below it carry. -/
theorem getLsbD_xor_addResult {i : Nat} (hi : i < w) (a b : BitVec w) (c : Bool) :
    (a ^^^ b ^^^ addResult a b c).getLsbD i = BitVec.carry i a b c := by
  have hc : BitVec.ofNat w (bitNat c) = (BitVec.ofBool c).setWidth w := by
    rw [← BitVec.ofNat_toNat, BitVec.toNat_ofBool, bitNat_eq_toNat]
  rw [addResult_eq, hc, BitVec.getLsbD_xor, BitVec.getLsbD_xor, BitVec.getLsbD_add_add_bool hi]
  cases a.getLsbD i <;> cases b.getLsbD i <;> simp

theorem auxCarry_addResult (hw : 4 < w) (a b : BitVec w) (c : Bool) :
    auxCarry a b (addResult a b c) = true ↔ 16 ≤ a.toNat % 16 + b.toNat % 16 + bitNat c := by
  rw [auxCarry, getLsbD_xor_addResult hw, BitVec.carry, decide_eq_true_iff, bitNat_eq_toNat]

theorem mod_of_lt_double {n m : Nat} (h : n < 2 * m) : n % m = if n < m then n else n - m := by
  split
  · exact Nat.mod_eq_of_lt ‹_›
  · rw [Nat.mod_eq_sub_mod (by omega), Nat.mod_eq_of_lt (by omega)]

/-- The signs of the operands agree and differ from the result's exactly where the signed sum does not fit: each value is its
unsigned one, less `2 ^ w` where its top bit is set, and the sum wraps once at most. -/
theorem overflow_addResult (hw : 0 < w) (a b : BitVec w) (c : Bool) :
    ((a ^^^ addResult a b c) &&& (b ^^^ addResult a b c)).msb = true ↔
      a.toInt + b.toInt + bitNat c < -2 ^ (w - 1) ∨ 2 ^ (w - 1) ≤ a.toInt + b.toInt + bitNat c := by
  have hc := bitNat_le_one c
  have ha := a.isLt
  have hb := b.isLt
  have hr := (addResult_toNat a b c).trans (mod_of_lt_double (by omega))
  have hpow : 2 ^ w = 2 * 2 ^ (w - 1) := by rw [← Nat.pow_succ', Nat.succ_eq_add_one, Nat.sub_add_cancel hw]
  have hcast : (2 : Int) ^ (w - 1) = ((2 ^ (w - 1) : Nat) : Int) := (Int.natCast_pow 2 (w - 1)).symm
  rw [BitVec.msb_and, BitVec.msb_xor, BitVec.msb_xor]
  simp only [BitVec.toInt_eq_msb_cond, BitVec.msb_eq_decide, Bool.and_eq_true, bne_iff_ne, ne_eq, decide_eq_decide,
    decide_eq_true_iff, hcast]
  rw [hpow] at ha hb hr ⊢
  generalize 2 ^ (w - 1) = half at *
  split at hr <;> split <;> split <;> omega

theorem addFlags_spec (hw : 4 < w) (a b : BitVec w) (c : Bool) (f : Flags) : AddSpec a b c f (addFlags a b c f) :=
  ⟨rfl, decide_eq_true_iff, auxCarry_addResult hw a b c, rfl, overflow_addResult (by omega) a b c, rfl, rfl, szp_zf f _, rfl,
    rfl, rfl, rfl⟩

/-- Settles O5, at any width above 4. -/
theorem addFlagsExact : Obligations.AddFlagsExact := by
  unfold Obligations.AddFlagsExact
  exact ⟨addFlags_spec (by decide), addFlags_spec (by decide)⟩

/-! Subtraction (41 R702, 10 R122). -/

theorem subResult_eq_ofInt (a b : BitVec w) (c : Bool) :
    subResult a b c = BitVec.ofInt w ((a.toNat : Int) - b.toNat - bitNat c) := by
  simp only [subResult, Int.sub_eq_add_neg, BitVec.ofInt_add, BitVec.ofInt_neg, BitVec.ofInt_natCast, BitVec.ofNat_toNat,
    BitVec.setWidth_eq, BitVec.sub_eq_add_neg]

/-- A difference plus what was subtracted is the minuend, so a borrow is the carry of that sum. -/
theorem addResult_subResult (a b : BitVec w) (c : Bool) : addResult (subResult a b c) b c = a := by
  rw [addResult_eq, subResult, BitVec.sub_sub, BitVec.add_comm b, ← BitVec.sub_sub, BitVec.sub_add_cancel, BitVec.sub_add_cancel]

/-- The digits below bit 4 borrow where those of the difference and of b carry. -/
theorem auxCarry_subResult (hw : 4 < w) (a b : BitVec w) (c : Bool) :
    auxCarry a b (subResult a b c) = true ↔ a.toNat % 16 < b.toNat % 16 + bitNat c := by
  have hc := bitNat_le_one c
  have hcarry := auxCarry_addResult hw (subResult a b c) b c
  have hdvd : 16 ∣ 2 ^ w := Nat.pow_dvd_pow 2 (Nat.le_of_lt hw)
  have hsum := addResult_toNat (subResult a b c) b c
  rw [addResult_subResult] at hsum
  have hdigit : a.toNat % 16 = ((subResult a b c).toNat + b.toNat + bitNat c) % 16 := by
    rw [hsum, Nat.mod_mod_of_dvd _ hdvd]
  have hswap : auxCarry a b (subResult a b c) = auxCarry (subResult a b c) b a := by
    rw [auxCarry, auxCarry, BitVec.xor_comm, BitVec.xor_comm a, BitVec.xor_assoc]
  rw [addResult_subResult] at hcarry
  rw [hswap, hcarry]
  omega

/-- A number is what it reads as at width w exactly where it is in the signed range. -/
theorem toInt_ofInt_ne_iff (hw : 0 < w) (i : Int) :
    (BitVec.ofInt w i).toInt ≠ i ↔ i < -2 ^ (w - 1) ∨ 2 ^ (w - 1) ≤ i := by
  constructor
  · intro h
    refine Decidable.by_contra fun hrange => h ?_
    exact BitVec.toInt_ofInt_eq_self hw (by omega) (by omega)
  · intro h heq
    have hlow := BitVec.le_toInt (BitVec.ofInt w i)
    have hhigh := BitVec.toInt_lt (x := BitVec.ofInt w i)
    omega

theorem addResult_eq_ofInt (a b : BitVec w) (c : Bool) : addResult a b c = BitVec.ofInt w (a.toInt + b.toInt + bitNat c) := by
  simp only [addResult_eq, BitVec.ofInt_add, BitVec.ofInt_toInt, BitVec.ofInt_natCast]

theorem subResult_eq_ofInt_toInt (a b : BitVec w) (c : Bool) :
    subResult a b c = BitVec.ofInt w (a.toInt - b.toInt - bitNat c) := by
  simp only [subResult, Int.sub_eq_add_neg, BitVec.ofInt_add, BitVec.ofInt_neg, BitVec.ofInt_toInt, BitVec.ofInt_natCast,
    BitVec.sub_eq_add_neg]

/-- The signed difference does not fit exactly where the sum of the result and b does not. -/
theorem overflow_subResult (hw : 0 < w) (a b : BitVec w) (c : Bool) :
    ((a ^^^ b) &&& (a ^^^ subResult a b c)).msb = true ↔
      a.toInt - b.toInt - bitNat c < -2 ^ (w - 1) ∨ 2 ^ (w - 1) ≤ a.toInt - b.toInt - bitNat c := by
  have hsum := overflow_addResult hw (subResult a b c) b c
  rw [← toInt_ofInt_ne_iff hw, ← addResult_eq_ofInt, addResult_subResult] at hsum
  rw [← toInt_ofInt_ne_iff hw, ← subResult_eq_ofInt_toInt, BitVec.and_comm, BitVec.xor_comm a, BitVec.xor_comm a b, hsum]
  omega

theorem subFlags_spec (hw : 4 < w) (a b : BitVec w) (c : Bool) (f : Flags) : SubSpec a b c f (subFlags a b c f) := by
  rw [SubSpec, ← subResult_eq_ofInt]
  exact ⟨rfl, decide_eq_true_iff, auxCarry_subResult hw a b c, rfl, overflow_subResult (by omega) a b c, rfl, rfl, szp_zf f _,
    rfl, rfl, rfl, rfl⟩

/-- Settles O6, at any width above 4. -/
theorem subFlagsExact : Obligations.SubFlagsExact := by
  unfold Obligations.SubFlagsExact
  exact ⟨subFlags_spec (by decide), subFlags_spec (by decide)⟩

/-! After a read, which leaves CPU and bus. -/

/-- What follows an effect on neither CPU nor bus, and leaves them too. -/
theorem Effect.quiet {s u t : State} (h : Effect s u s.cpu s.bus []) (k : Effect u t u.cpu u.bus []) :
    Effect s t s.cpu s.bus [] := by
  have hk := h.trans k
  rwa [h.1, h.2.1] at hk

theorem Effect.logicFlags {s u : State} (h : Effect s u s.cpu s.bus []) (r : BitVec w) : ∃ af, Effect s (setLogicFlags r u)
    (s.cpu.putFlags { s.cpu.flags.szp r with cf := false, ovf := false, af := af }) s.bus [] :=
  ⟨_, (h.quiet (drawBit_effect u)).mapFlags _⟩

theorem Effect.mulFlags {s u : State} (h : Effect s u s.cpu s.bus []) (v : Bool) : ∃ sf zf af pf, Effect s (setMulFlags v u)
    (s.cpu.putFlags { s.cpu.flags with cf := v, ovf := v, sf := sf, zf := zf, af := af, pf := pf }) s.bus [] :=
  ⟨_, _, _, _, (h.quiet (fourDraws_effect u)).mapFlags _⟩

theorem Effect.sixFlags {s u : State} (h : Effect s u s.cpu s.bus []) : ∃ f, KeepsControl s.cpu.flags f ∧
    Effect s (drawSixFlags u) (s.cpu.putFlags f) s.bus [] := by
  refine ⟨_, ?_, (h.quiet (sixDraws_effect u)).mapFlags _⟩
  exact ⟨rfl, rfl, rfl⟩

theorem Effect.writeLoc8 {s u : State} {c : Cpu} (h : Effect s u c s.bus []) (hsegs : c.segs = s.cpu.segs) (e : RM8)
    (v : Byte) : Effect s (writeLoc8 (locate8 e s) v u) (cpuPut8 e v c) (busPut8 s e v) (cells8 s e) := by
  have hwrite := writeLoc8_effect e v s u h.2.1 (by rw [h.1, hsegs])
  rw [h.1] at hwrite
  exact h.trans hwrite

theorem Effect.writeLoc16 {s u : State} {c : Cpu} (h : Effect s u c s.bus []) (hsegs : c.segs = s.cpu.segs) (e : RM16)
    (v : Word) : Effect s (writeLoc16 (locate16 e s) v u) (cpuPut16 e v c) (busPut16 s e v) (cells16 s e) := by
  have hwrite := writeLoc16_effect e v s u h.2.1 (by rw [h.1, hsegs])
  rw [h.1] at hwrite
  exact h.trans hwrite

/-! The ALU (41 R703, R705 to R709, 42 R800 to R803). -/

theorem aluResult_eq_aluValue (op : AluOp) (a b : BitVec w) (cf : Bool) : aluResult op a b cf = aluValue op a b cf := by
  cases op with
  | add | sub | cmp => simp [aluResult, aluValue]
  | adc => exact addResult_eq a b cf
  | sbb | or | and | xor => rfl

theorem Effect.aluFlags {s u : State} (h : Effect s u s.cpu s.bus []) (op : AluOp) (a b : BitVec w) :
    ∃ af, Effect s (aluFlags op a b u) (s.cpu.putFlags (aluFlagsAfter op a b af s.cpu.flags)) s.bus [] := by
  cases op with
  | add | sub | cmp => exact ⟨false, h.mapFlags _⟩
  | adc => exact ⟨false, h.mapFlags fun f => addFlags a b f.cf f⟩
  | sbb => exact ⟨false, h.mapFlags fun f => subFlags a b f.cf f⟩
  | or | and | xor => exact h.logicFlags _

/-- Result and flags of an operation on the values that a read has given. -/
theorem Effect.alu {s u : State} (h : Effect s u s.cpu s.bus []) (op : AluOp) (a b : BitVec w) :
    (alu op a b u).1 = aluValue op a b s.cpu.flags.cf ∧
      ∃ af, Effect s (alu op a b u).2 (s.cpu.putFlags (aluFlagsAfter op a b af s.cpu.flags)) s.bus [] :=
  ⟨by rw [Machine.alu, aluResult_eq_aluValue, h.1], h.aluFlags op a b⟩

theorem aluRM8_effect (op : AluOp) (e : RM8) (b : Byte) (s : State) : AluByte op e b s (aluRM8 op e b s) := by
  obtain ⟨ha, h⟩ := readLoc8_effect e s
  obtain ⟨hvalue, af, hflags⟩ := h.alu op (readLoc8 (locate8 e s) s).1 b
  refine ⟨_, af, ha, ?_⟩
  unfold aluRM8
  split
  · exact hflags
  · rw [← hvalue]
    exact hflags.writeLoc8 rfl e _

theorem aluRM16_effect (op : AluOp) (e : RM16) (b : Word) (s : State) : AluWord op e b s (aluRM16 op e b s) := by
  obtain ⟨ha, h⟩ := readLoc16_effect e s
  obtain ⟨hvalue, af, hflags⟩ := h.alu op (readLoc16 (locate16 e s) s).1 b
  refine ⟨_, af, ha, ?_⟩
  unfold aluRM16
  split
  · exact hflags
  · rw [← hvalue]
    exact hflags.writeLoc16 rfl e _

theorem aluReg8_effect (op : AluOp) (g : Reg8) (e : RM8) (s : State) : AluRegByte op g e s (aluReg8 op g e s) := by
  obtain ⟨hb, h⟩ := readRM8_effect e s
  obtain ⟨hvalue, af, hflags⟩ := h.alu op (s.reg8 g) (readRM8 e s).1
  refine ⟨_, af, hb, ?_⟩
  simp only [aluReg8, reg8_of_cpu h.1, hvalue]
  split
  · exact hflags
  · exact hflags.put8 g _

theorem aluReg16_effect (op : AluOp) (g : Reg16) (e : RM16) (s : State) : AluRegWord op g e s (aluReg16 op g e s) := by
  obtain ⟨hb, h⟩ := readRM16_effect e s
  obtain ⟨hvalue, af, hflags⟩ := h.alu op (s.reg16 g) (readRM16 e s).1
  refine ⟨_, af, hb, ?_⟩
  simp only [aluReg16, reg16_of_cpu h.1, hvalue]
  split
  · exact hflags
  · exact hflags.put16 g _

theorem exec_aluEbGb (op : AluOp) (e : RM8) (g : Reg8) (s : State) :
    exec (aluEbGb op e g) s = .next (aluRM8 op e (s.reg8 g) s) := by cases op <;> rfl

theorem exec_aluGbEb (op : AluOp) (g : Reg8) (e : RM8) (s : State) : exec (aluGbEb op g e) s = .next (aluReg8 op g e s) := by
  cases op <;> rfl

theorem exec_aluAlIb (op : AluOp) (i : Byte) (s : State) : exec (aluAlIb op i) s = .next (aluRM8 op (.reg .al) i s) := by
  cases op <;> rfl

theorem exec_aluEbIb (op : AluOp) (e : RM8) (i : Byte) (s : State) : exec (aluEbIb op e i) s = .next (aluRM8 op e i s) := by
  cases op <;> rfl

theorem exec_aluEvGv (op : AluOp) (e : RM16) (g : Reg16) (s : State) :
    exec (aluEvGv op e g) s = .next (aluRM16 op e (s.reg16 g) s) := by cases op <;> rfl

theorem exec_aluGvEv (op : AluOp) (g : Reg16) (e : RM16) (s : State) :
    exec (aluGvEv op g e) s = .next (aluReg16 op g e s) := by cases op <;> rfl

theorem exec_aluAxIw (op : AluOp) (i : Word) (s : State) : exec (aluAxIw op i) s = .next (aluRM16 op (.reg .ax) i s) := by
  cases op <;> rfl

theorem exec_aluEvIw (op : AluOp) (e : RM16) (i : Word) (s : State) : exec (aluEvIw op e i) s = .next (aluRM16 op e i s) := by
  cases op <;> rfl

theorem exec_aluEvIbSx (op : AluOp) (e : RM16) (i : Byte) (s : State) :
    exec (aluEvIbSx op e i) s = .next (aluRM16 op e (i.signExtend 16) s) := by cases op <;> rfl

/-- Settles O8: each form is one of the four shared ones, with its own second operand. -/
theorem aluForms : Obligations.AluForms := by
  unfold Obligations.AluForms
  exact fun op s => ⟨fun e g => ⟨_, exec_aluEbGb op e g s, aluRM8_effect ..⟩,
    fun g e => ⟨_, exec_aluGbEb op g e s, aluReg8_effect ..⟩,
    fun i => ⟨_, exec_aluAlIb op i s, aluRM8_effect ..⟩, fun e i => ⟨_, exec_aluEbIb op e i s, aluRM8_effect ..⟩,
    fun e g => ⟨_, exec_aluEvGv op e g s, aluRM16_effect ..⟩, fun g e => ⟨_, exec_aluGvEv op g e s, aluReg16_effect ..⟩,
    fun i => ⟨_, exec_aluAxIw op i s, aluRM16_effect ..⟩, fun e i => ⟨_, exec_aluEvIw op e i s, aluRM16_effect ..⟩,
    fun e i => ⟨_, exec_aluEvIbSx op e i s, aluRM16_effect ..⟩⟩

/-! One operand (41 R710 to R714, 42 R805). -/

theorem incRM8_unary (e : RM8) (s : State) : UnaryByte e (fun a => a + 1)
    (fun a => { addFlags a 1 false s.cpu.flags with cf := s.cpu.flags.cf }) s (incRM8 e s) := by
  simp only [incRM8, addResult_false]
  exact modifyRM8_effect e (fun a => a + 1) incFlags s

theorem decRM8_unary (e : RM8) (s : State) : UnaryByte e (fun a => a - 1)
    (fun a => { subFlags a 1 false s.cpu.flags with cf := s.cpu.flags.cf }) s (decRM8 e s) := by
  simp only [decRM8, subResult_false]
  exact modifyRM8_effect e (fun a => a - 1) decFlags s

theorem incRM16_unary (e : RM16) (s : State) : UnaryWord e (fun a => a + 1)
    (fun a => { addFlags a 1 false s.cpu.flags with cf := s.cpu.flags.cf }) s (incRM16 e s) := by
  simp only [incRM16, addResult_false]
  exact modifyRM16_effect e (fun a => a + 1) incFlags s

theorem decRM16_unary (e : RM16) (s : State) : UnaryWord e (fun a => a - 1)
    (fun a => { subFlags a 1 false s.cpu.flags with cf := s.cpu.flags.cf }) s (decRM16 e s) := by
  simp only [decRM16, subResult_false]
  exact modifyRM16_effect e (fun a => a - 1) decFlags s

theorem negRM8_unary (e : RM8) (s : State) :
    UnaryByte e (fun a => 0 - a) (fun a => subFlags 0 a false s.cpu.flags) s (negRM8 e s) := by
  simp only [negRM8, subResult_false]
  exact modifyRM8_effect e (fun a => 0 - a) (fun a => subFlags 0 a false) s

theorem negRM16_unary (e : RM16) (s : State) :
    UnaryWord e (fun a => 0 - a) (fun a => subFlags 0 a false s.cpu.flags) s (negRM16 e s) := by
  simp only [negRM16, subResult_false]
  exact modifyRM16_effect e (fun a => 0 - a) (fun a => subFlags 0 a false) s

/-- An operation on a word register alone. -/
theorem UnaryWord.of_reg {r : Reg16} {v : Word → Word} {g : Word → Flags} {s t : State} (h : UnaryWord (.reg r) v g s t) :
    Effect s t ((s.cpu.putFlags (g (s.reg16 r))).put16 r (v (s.reg16 r))) s.bus [] := by
  obtain ⟨_, rfl, h⟩ := h
  exact h

theorem subFlags_zero_cf (f : Flags) (a : BitVec w) : (subFlags 0 a false f).cf = true ↔ a ≠ 0 := by
  simp [subFlags, bitNat, BitVec.toNat_eq, Nat.pos_iff_ne_zero]

/-- The negation of the most negative value is the one that does not fit. -/
theorem subFlags_zero_ovf (hw : 4 < w) (f : Flags) (a : BitVec w) :
    (subFlags 0 a false f).ovf = true ↔ a.toInt = -2 ^ (w - 1) := by
  have hovf := overflow_subResult (by omega) 0#w a false
  have hlow := BitVec.le_toInt a
  have hhigh := BitVec.toInt_lt (x := a)
  have hborrow : bitNat false = 0 := rfl
  rw [BitVec.toInt_zero] at hovf
  refine hovf.trans ?_
  omega

/-- Settles O10: all are read-modify-write forms; the borrow and the overflow of `0 - a` give NEG's CF and OF. -/
theorem unaryForms : Obligations.UnaryForms := by
  unfold Obligations.UnaryForms
  refine ⟨fun s => ⟨fun r => ⟨_, rfl, UnaryWord.of_reg (incRM16_unary (.reg r) s)⟩,
    fun r => ⟨_, rfl, UnaryWord.of_reg (decRM16_unary (.reg r) s)⟩,
    fun e => ⟨_, rfl, incRM8_unary e s⟩, fun e => ⟨_, rfl, decRM8_unary e s⟩, fun e => ⟨_, rfl, incRM16_unary e s⟩,
    fun e => ⟨_, rfl, decRM16_unary e s⟩⟩,
    fun s => ⟨fun e => ⟨_, rfl, negRM8_unary e s⟩, fun e => ⟨_, rfl, negRM16_unary e s⟩,
      fun e => ⟨_, rfl, modifyRM8_effect e (fun a => ~~~a) (fun _ f => f) s⟩,
      fun e => ⟨_, rfl, modifyRM16_effect e (fun a => ~~~a) (fun _ f => f) s⟩⟩,
    fun f a => ⟨subFlags_zero_cf f a, (subFlags_zero_ovf (by decide) f a).trans ?_⟩,
    fun f a => ⟨subFlags_zero_cf f a, (subFlags_zero_ovf (by decide) f a).trans ?_⟩⟩
  · exact BitVec.toInt_inj (y := (0x80 : Byte))
  · exact BitVec.toInt_inj (y := (0x8000 : Word))

/-! Multiplication (41 R720, R721, R730). -/

theorem setWidth_mul_setWidth (n : Nat) (x y : BitVec w) :
    x.setWidth n * y.setWidth n = BitVec.ofNat n (x.toNat * y.toNat) := by
  rw [BitVec.ofNat_mul, BitVec.ofNat_toNat, BitVec.ofNat_toNat]

theorem signExtend_mul_signExtend (n : Nat) (x y : BitVec w) :
    x.signExtend n * y.signExtend n = BitVec.ofInt n (x.toInt * y.toInt) :=
  (BitVec.ofInt_mul ..).symm

theorem negateIf_ofInt (b : Bool) (i : Int) : negateIf b (BitVec.ofInt w i) = BitVec.ofInt w (if b then -i else i) := by
  cases b with
  | false => rfl
  | true => exact BitVec.ofInt_neg.symm

theorem Effect.negatesUnsigned {s u : State} (h : Effect s u s.cpu s.bus []) : negatesUnsigned u = negatesMul s := by
  rw [Machine.negatesUnsigned, negatesMul, h.1, h.frame.params]

/-- A product in AX, with the flags that say it does not fit AL. -/
theorem Effect.productAx {s u : State} (h : Effect s u s.cpu s.bus []) (big : Bool) (p : Word) : ∃ sf zf af pf,
    Effect s ((setMulFlags big u).setReg16 .ax p)
      ((s.cpu.putFlags { s.cpu.flags with cf := big, ovf := big, sf := sf, zf := zf, af := af, pf := pf }).put16 .ax p)
      s.bus [] :=
  have ⟨sf, zf, af, pf, k⟩ := h.mulFlags big
  ⟨sf, zf, af, pf, k.put16 .ax p⟩

/-- A product in DX:AX, with the flags that say it does not fit AX. -/
theorem Effect.productDxAx {s u : State} (h : Effect s u s.cpu s.bus []) (big : Bool) (lo hi : Word) : ∃ sf zf af pf,
    Effect s (((setMulFlags big u).setReg16 .ax lo).setReg16 .dx hi)
      (((s.cpu.putFlags { s.cpu.flags with cf := big, ovf := big, sf := sf, zf := zf, af := af, pf := pf }).put16 .ax lo).put16
        .dx hi) s.bus [] :=
  have ⟨sf, zf, af, pf, k⟩ := h.mulFlags big
  ⟨sf, zf, af, pf, (k.put16 .ax lo).put16 .dx hi⟩

theorem Effect.mulByte {s u : State} (h : Effect s u s.cpu s.bus []) (v : Byte) : ∃ sf zf af pf,
    let p := negateIf (negatesMul s) (BitVec.ofNat 16 ((s.reg8 .al).toNat * v.toNat))
    let big := hiByte p != 0
    Effect s (mulByte v u)
      ((s.cpu.putFlags { s.cpu.flags with cf := big, ovf := big, sf := sf, zf := zf, af := af, pf := pf }).put16 .ax p)
      s.bus [] := by
  simp only [Machine.mulByte, h.negatesUnsigned, reg8_of_cpu h.1, zext16, setWidth_mul_setWidth]
  exact h.productAx _ _

theorem Effect.mulWord {s u : State} (h : Effect s u s.cpu s.bus []) (v : Word) : ∃ sf zf af pf,
    let p := negateIf (negatesMul s) (BitVec.ofNat 32 ((s.reg16 .ax).toNat * v.toNat))
    let hi := p.extractLsb' 16 16
    let big := hi != 0
    Effect s (mulWord v u)
      (((s.cpu.putFlags { s.cpu.flags with cf := big, ovf := big, sf := sf, zf := zf, af := af, pf := pf }).put16
        .ax (p.setWidth 16)).put16 .dx hi) s.bus [] := by
  simp only [Machine.mulWord, h.negatesUnsigned, reg16_of_cpu h.1, setWidth_mul_setWidth]
  exact h.productDxAx _ _ _

theorem Effect.imulByte {s u : State} (h : Effect s u s.cpu s.bus []) (v : Byte) : ∃ sf zf af pf,
    let p := (s.reg8 .al).toInt * v.toInt
    let ax := BitVec.ofInt 16 (if s.cpu.f1 then -p else p)
    let big := ax != (loByte ax).signExtend 16
    Effect s (imulByte v u)
      ((s.cpu.putFlags { s.cpu.flags with cf := big, ovf := big, sf := sf, zf := zf, af := af, pf := pf }).put16 .ax ax)
      s.bus [] := by
  simp only [Machine.imulByte, h.1, reg8_of_cpu h.1, sext16, signExtend_mul_signExtend, negateIf_ofInt]
  exact h.productAx _ _

theorem Effect.imulWord {s u : State} (h : Effect s u s.cpu s.bus []) (v : Word) : ∃ sf zf af pf,
    let p := (s.reg16 .ax).toInt * v.toInt
    let dxax := BitVec.ofInt 32 (if s.cpu.f1 then -p else p)
    let ax : Word := dxax.setWidth 16
    let big := dxax != ax.signExtend 32
    Effect s (imulWord v u)
      (((s.cpu.putFlags { s.cpu.flags with cf := big, ovf := big, sf := sf, zf := zf, af := af, pf := pf }).put16
        .ax ax).put16 .dx (dxax.extractLsb' 16 16)) s.bus [] := by
  simp only [Machine.imulWord, h.1, reg16_of_cpu h.1, signExtend_mul_signExtend, negateIf_ofInt]
  exact h.productDxAx _ _ _

theorem extractLsb'_eq_ofNat_div (p : BitVec w) (n : Nat) : p.extractLsb' n n = BitVec.ofNat n (p.toNat / 2 ^ n) := by
  rw [BitVec.extractLsb', Nat.shiftRight_eq_div_pow]

/-- Settles O11: the product of the extended operands is the product of their values, negated where REP negates it. -/
theorem multiplyForms : Obligations.MultiplyForms := by
  unfold Obligations.MultiplyForms
  refine ⟨fun s => ⟨fun e => ?_, fun e => ?_⟩, fun s => ⟨fun e => ?_, fun e => ?_⟩⟩
  · obtain ⟨hv, h⟩ := readRM8_effect e s
    obtain ⟨sf, zf, af, pf, k⟩ := h.mulByte (readRM8 e s).1
    exact ⟨_, sf, zf, af, pf, _, hv, rfl, k⟩
  · obtain ⟨hv, h⟩ := readRM16_effect e s
    obtain ⟨sf, zf, af, pf, k⟩ := h.mulWord (readRM16 e s).1
    simp only [extractLsb'_eq_ofNat_div, ← BitVec.ofNat_toNat] at k
    exact ⟨_, sf, zf, af, pf, _, hv, rfl, k⟩
  · obtain ⟨hv, h⟩ := readRM8_effect e s
    obtain ⟨sf, zf, af, pf, k⟩ := h.imulByte (readRM8 e s).1
    exact ⟨_, sf, zf, af, pf, _, hv, rfl, k⟩
  · obtain ⟨hv, h⟩ := readRM16_effect e s
    obtain ⟨sf, zf, af, pf, k⟩ := h.imulWord (readRM16 e s).1
    exact ⟨_, sf, zf, af, pf, _, hv, rfl, k⟩

/-! Division (41 R722 to R724, R734). -/

theorem Effect.divideError {s u : State} (h : Effect s u s.cpu s.bus []) : DivideError s (divideError u) := by
  obtain ⟨f, htf, hifl, hdf, henters⟩ := divideError_enters u
  rw [h.1, h.frame.params] at henters
  rw [h.1] at htf hifl hdf
  exact ⟨f, ⟨htf, hifl, hdf⟩, .of_effect h henters⟩

theorem divideUnsigned_eq_none {n d : Nat} (h : d = 0 ∨ n / d > 2 ^ w - 1) : divideUnsigned w n d = none := by
  have hpos := Nat.two_pow_pos w
  exact if_pos (h.imp_right (by omega))

theorem divideUnsigned_eq_some {n d : Nat} (h : ¬ (d = 0 ∨ n / d > 2 ^ w - 1)) :
    divideUnsigned w n d = some (n / d, n % d) := by
  have hpos := Nat.two_pow_pos w
  exact if_neg fun herr => h (herr.imp_right (by omega))

theorem divideSigned_eq_none {n d : Int}
    (h : d = 0 ∨ n.tdiv d > 2 ^ (w - 1) - 1 ∨ n.tdiv d < -(2 ^ (w - 1) - 1)) : divideSigned w n d = none := by
  unfold divideSigned
  split
  · rfl
  · exact if_pos (h.resolve_left ‹_›)

theorem divideSigned_eq_some {n d : Int}
    (h : ¬ (d = 0 ∨ n.tdiv d > 2 ^ (w - 1) - 1 ∨ n.tdiv d < -(2 ^ (w - 1) - 1))) :
    divideSigned w n d = some (n.tdiv d, n - n.tdiv d * d) := by
  rw [not_or] at h
  rw [divideSigned, if_neg h.1]
  exact if_neg h.2

/-- Settles O12: the range tests of the shared divisions, with the divide error or the quotient and remainder after them. -/
theorem divideForms : Obligations.DivideForms := by
  unfold Obligations.DivideForms
  refine ⟨fun s => ⟨fun e => ?_, fun e => ?_⟩, fun s => ⟨fun e => ?_, fun e => ?_⟩⟩
  · obtain ⟨hv, h⟩ := readRM8_effect e s
    refine ⟨_, _, hv, rfl, fun herr => ?_, fun hfits => ?_⟩
    · rw [divByte, reg16_of_cpu h.1, divideUnsigned_eq_none (w := 8) herr]
      exact h.divideError
    · obtain ⟨f, hf, k⟩ := h.sixFlags
      rw [divByte, h.negatesUnsigned, reg16_of_cpu h.1, divideUnsigned_eq_some (w := 8) hfits]
      exact ⟨f, hf, k.put16 .ax _⟩
  · obtain ⟨hv, h⟩ := readRM16_effect e s
    refine ⟨_, _, hv, rfl, fun herr => ?_, fun hfits => ?_⟩
    · rw [divWord, reg16_of_cpu h.1, reg16_of_cpu h.1, divideUnsigned_eq_none (w := 16) herr]
      exact h.divideError
    · obtain ⟨f, hf, k⟩ := h.sixFlags
      rw [divWord, h.negatesUnsigned, reg16_of_cpu h.1, reg16_of_cpu h.1, divideUnsigned_eq_some (w := 16) hfits]
      exact ⟨f, hf, (k.put16 .ax _).put16 .dx _⟩
  · obtain ⟨hv, h⟩ := readRM8_effect e s
    refine ⟨_, _, hv, rfl, fun herr => ?_, fun hfits => ?_⟩
    · rw [idivByte, reg16_of_cpu h.1, divideSigned_eq_none (w := 8) herr]
      exact h.divideError
    · obtain ⟨f, hf, k⟩ := h.sixFlags
      rw [idivByte, h.1, reg16_of_cpu h.1, divideSigned_eq_some (w := 8) hfits]
      simp only [negateIf_ofInt]
      exact ⟨f, hf, k.put16 .ax _⟩
  · obtain ⟨hv, h⟩ := readRM16_effect e s
    have hn : (s.reg16 .dx ++ s.reg16 .ax).toInt = (s.reg16 .dx).toInt * 2 ^ 16 + (s.reg16 .ax).toNat := by
      rw [BitVec.toInt_append, if_neg (by decide), Int.mul_comm]
    refine ⟨_, _, hv, rfl, fun herr => ?_, fun hfits => ?_⟩
    · rw [idivWord, reg16_of_cpu h.1, reg16_of_cpu h.1, hn, divideSigned_eq_none (w := 16) herr]
      exact h.divideError
    · obtain ⟨f, hf, k⟩ := h.sixFlags
      rw [idivWord, h.1, reg16_of_cpu h.1, reg16_of_cpu h.1, hn, divideSigned_eq_some (w := 16) hfits]
      simp only [negateIf_ofInt]
      exact ⟨f, hf, (k.put16 .ax _).put16 .dx _⟩

/-! Decimal and ASCII adjusts (41 R740 to R745). -/

theorem adjustsLow_eq (x : Byte) (f : Flags) : adjustsLow x f = (decide (x.toNat % 16 > 9) || f.af) := by
  have hdigit : (x &&& 0x0F).toNat = x.toNat % 16 := Nat.and_two_pow_sub_one_eq_mod x.toNat 4
  rw [adjustsLow, hdigit]

theorem adjustsHigh_eq (t : DaaThreshold) (x : Byte) (f : Flags) : adjustsHigh t x f =
    (decide (x.toNat > if t = .afDependent ∧ f.af = true then 0x9F else 0x99) || f.cf) := by
  cases t with
  | intel => rfl
  | afDependent => simp only [adjustsHigh, true_and, gt_iff_lt]

theorem decimalAdjust_effect (r : Byte) (s : State) : ∃ o, Effect s (decimalAdjust r s)
    ((s.cpu.putFlags (decimalFlags s.params.daaThreshold (s.reg8 .al) r o s.cpu.flags)).put8 .al r) s.bus [] :=
  ⟨_, ((drawBit_effect s).mapFlags _).put8 .al r⟩

theorem asciiAdjust_effect (al ah : Byte) (s : State) : ∃ o sf zf pf,
    let adj := adjustsLow (s.reg8 .al) s.cpu.flags
    Effect s (asciiAdjust al ah s)
      ((s.cpu.putFlags { s.cpu.flags with af := adj, cf := adj, ovf := o, sf := sf, zf := zf, pf := pf }).put16 .ax
        (if adj then ah ++ (al &&& 0x0F) else s.reg8 .ah ++ (s.reg8 .al &&& 0x0F))) s.bus [] :=
  ⟨_, _, _, _, ((fourDraws_effect s).mapFlags _).put16 .ax _⟩

/-- Settles O13: DAA and DAS, like AAA and AAS, share their tests and flags and differ in the AL (and AH) they write. -/
theorem decimalAsciiAdjusts : Obligations.DecimalAsciiAdjusts := by
  unfold Obligations.DecimalAsciiAdjusts
  refine ⟨fun s => ⟨?_, ?_⟩, fun s => ⟨?_, ?_⟩⟩
  · obtain ⟨o, h⟩ := decimalAdjust_effect (daaResult s.params.daaThreshold (s.reg8 .al) s.cpu.flags) s
    refine ⟨o, _, rfl, ?_⟩
    simpa only [decimalFlags, daaResult, adjustsLow_eq, adjustsHigh_eq] using h
  · obtain ⟨o, h⟩ := decimalAdjust_effect (dasResult s.params.daaThreshold (s.reg8 .al) s.cpu.flags) s
    refine ⟨o, _, rfl, ?_⟩
    simpa only [decimalFlags, dasResult, adjustsLow_eq, adjustsHigh_eq] using h
  · obtain ⟨o, sf, zf, pf, h⟩ := asciiAdjust_effect (s.reg8 .al + 6) (s.reg8 .ah + 1) s
    rw [adjustsLow_eq] at h
    exact ⟨o, sf, zf, pf, _, rfl, h⟩
  · obtain ⟨o, sf, zf, pf, h⟩ := asciiAdjust_effect (s.reg8 .al - 6) (s.reg8 .ah - 1) s
    rw [adjustsLow_eq] at h
    exact ⟨o, sf, zf, pf, _, rfl, h⟩

theorem aam_error (s : State) : DivideError s (aam 0 s) := (Effect.refl s).divideError

theorem aam_effect {i : Byte} (hi : i ≠ 0) (s : State) : ∃ c o a,
    let r := BitVec.ofNat 8 ((s.reg8 .al).toNat % i.toNat)
    Effect s (aam i s) ((s.cpu.putFlags { s.cpu.flags.szp r with cf := c, ovf := o, af := a }).put16 .ax
      (BitVec.ofNat 8 ((s.reg8 .al).toNat / i.toNat) ++ r)) s.bus [] := by
  obtain ⟨c, o, a, h⟩ := asciiFlags_effect (s.reg8 .al % i) s
  simp only [aam, if_neg hi, ← BitVec.umod_def, ← BitVec.udiv_def]
  exact ⟨c, o, a, h.put16 .ax _⟩

theorem aad_effect (i : Byte) (s : State) : ∃ c o a,
    let r := BitVec.ofNat 8 ((s.reg8 .al).toNat + (s.reg8 .ah).toNat * i.toNat)
    Effect s (aad i s) ((s.cpu.putFlags { s.cpu.flags.szp r with cf := c, ovf := o, af := a }).put16 .ax ((0 : Byte) ++ r))
      s.bus [] := by
  obtain ⟨c, o, a, h⟩ := asciiFlags_effect (s.reg8 .al + s.reg8 .ah * i) s
  simp only [BitVec.ofNat_add, BitVec.ofNat_mul, BitVec.ofNat_toNat, BitVec.setWidth_eq]
  exact ⟨c, o, a, h.put16 .ax _⟩

/-- Settles O14: byte quotient, remainder, product and sum are those of the values modulo 256. -/
theorem asciiMulDiv : Obligations.AsciiMulDiv := by
  unfold Obligations.AsciiMulDiv
  refine fun s i => ⟨⟨_, rfl, ?_, fun hi => aam_effect hi s⟩, ?_⟩
  · rintro rfl
    exact aam_error s
  · obtain ⟨c, o, a, h⟩ := aad_effect i s
    exact ⟨c, o, a, _, rfl, h⟩

/-! Sign extension and the low FLAGS byte (41 R750, R751, 40 R630, R631). -/

theorem sext16_eq_append (x : Byte) : sext16 x = (if x.getLsbD 7 then (0xFF : Byte) else 0) ++ x := by
  rw [sext16, BitVec.signExtend_eq_append_of_le (by decide), BitVec.cast_eq, BitVec.msb_eq_getLsbD_last]
  rfl

/-- Settles O15: each writes one register, or the flags, from the state itself. -/
theorem extendAndFlagBytes : Obligations.ExtendAndFlagBytes := by
  unfold Obligations.ExtendAndFlagBytes
  refine fun s => ⟨⟨_, rfl, ?_⟩, ⟨_, rfl, ?_⟩, ⟨_, rfl, setReg8_effect .ah _ s⟩, ⟨_, rfl, mapFlags_effect _ s⟩⟩
  · rw [← sext16_eq_append]
    exact setReg16_effect .ax _ s
  · rw [← BitVec.msb_eq_getLsbD_last]
    exact setReg16_effect .dx _ s

/-! The undocumented rows (41 R752, 42 R818, 30 R455). -/

theorem aliasOf_asAlias {s : State} (h : s.params.undocMode = .asAlias) (op : Byte) (t : State) : aliasOf op s t = .next t := by
  rw [aliasOf, h]

theorem setmoRM8_effect (n : Nat) (e : RM8) (s : State) : SetmoByte n e s (setmoRM8 n e s) := by
  obtain ⟨_, h⟩ := readLoc8_effect e s
  unfold SetmoByte setmoRM8
  split
  · exact h.quiet (rewriteLoc8_effect ..)
  · exact (h.mapFlags (setmoFlags (0xFF : Byte))).writeLoc8 rfl e 0xFF

theorem setmoRM16_effect (n : Nat) (e : RM16) (s : State) : SetmoWord n e s (setmoRM16 n e s) := by
  obtain ⟨_, h⟩ := readLoc16_effect e s
  unfold SetmoWord setmoRM16
  split
  · exact h.quiet (rewriteLoc16_effect ..)
  · exact (h.mapFlags (setmoFlags (0xFFFF : Word))).writeLoc16 rfl e 0xFFFF

/-- The conditional jump of a code has the condition of that code (44 R1003). -/
theorem exec_jcc (cc : BitVec 4) (rel : Byte) (s : State) :
    exec (jcc cc.toFin rel) s = .next (jumpIf (cond cc s.cpu.flags) rel s) := by
  match cc with
  | ⟨⟨0, _⟩⟩ | ⟨⟨1, _⟩⟩ | ⟨⟨2, _⟩⟩ | ⟨⟨3, _⟩⟩ | ⟨⟨4, _⟩⟩ | ⟨⟨5, _⟩⟩ | ⟨⟨6, _⟩⟩ | ⟨⟨7, _⟩⟩ | ⟨⟨8, _⟩⟩ | ⟨⟨9, _⟩⟩ | ⟨⟨10, _⟩⟩ | ⟨⟨11, _⟩⟩
  | ⟨⟨12, _⟩⟩ | ⟨⟨13, _⟩⟩ | ⟨⟨14, _⟩⟩ | ⟨⟨15, _⟩⟩ => rfl
  | ⟨⟨n + 16, hn⟩⟩ => exact absurd hn (by omega)

/-- An undocumented row of 30 R455 and the instruction it stands for lead to one state. -/
theorem exec_documented {i d : Instr} {op : Byte} (h : documented i = some (d, op)) (s : State) :
    ∃ t, exec d s = .next t ∧ exec i s = aliasOf op s t := by
  cases i with
  | addEbIbAlias | orEbIbAlias | adcEbIbAlias | sbbEbIbAlias | andEbIbAlias | subEbIbAlias | xorEbIbAlias | cmpEbIbAlias
  | testEbIbAlias | testEvIwAlias | movEwSwAlias | movEsEwAlias | movSsEwAlias | movDsEwAlias | retIwAlias | retAlias
  | retfIwAlias | retfAlias | prefixLockAlias =>
    cases h
    exact ⟨_, rfl, rfl⟩
  | jccAlias cc rel =>
    cases h
    exact ⟨_, exec_jcc cc rel s, rfl⟩
  | _ => cases h

/-- Settles O18: where the undocumented rows execute, `aliasOf` answers the row's own next state, which for the rows of R455 is
that of the documented instruction. -/
theorem undocumentedRows : Obligations.UndocumentedRows := by
  unfold Obligations.UndocumentedRows
  refine ⟨fun s hmode => ⟨⟨_, aliasOf_asAlias hmode .., setReg8_effect .al _ s⟩,
    fun e => ⟨_, aliasOf_asAlias hmode .., setmoRM8_effect 1 e s⟩,
    fun e => ⟨_, aliasOf_asAlias hmode .., setmoRM16_effect 1 e s⟩,
    fun e => ⟨_, aliasOf_asAlias hmode .., setmoRM8_effect _ e s⟩,
    fun e => ⟨_, aliasOf_asAlias hmode .., setmoRM16_effect _ e s⟩⟩,
    fun i d op s h hmode => ?_⟩
  obtain ⟨t, hd, hi⟩ := exec_documented h s
  exact ⟨t, hd, hi.trans (aliasOf_asAlias hmode op t)⟩

end Sys2Proof.Machine

/-! Logic, shifts and rotates (42_logic_shift): TEST, n steps of a shift or rotate in closed form, and the forms of group 2. -/

namespace Sys2Proof.Machine

open Sys2Proof.Claims

variable {w : Nat}

/-! TEST (42 R804). -/

theorem test8_effect (e : RM8) (b : Byte) (s : State) : TestByte e b s (test8 e b s) := by
  obtain ⟨ha, h⟩ := readRM8_effect e s
  obtain ⟨af, hflags⟩ := h.logicFlags ((readRM8 e s).1 &&& b)
  exact ⟨_, af, ha, hflags⟩

theorem test16_effect (e : RM16) (b : Word) (s : State) : TestWord e b s (test16 e b s) := by
  obtain ⟨ha, h⟩ := readRM16_effect e s
  obtain ⟨af, hflags⟩ := h.logicFlags ((readRM16 e s).1 &&& b)
  exact ⟨_, af, ha, hflags⟩

/-- Settles O9: each form is the shared one of its width, a read and then the flags of the AND. -/
theorem testForms : Obligations.TestForms := by
  unfold Obligations.TestForms
  exact fun s => ⟨fun e g => ⟨_, rfl, test8_effect e (s.reg8 g) s⟩, fun e g => ⟨_, rfl, test16_effect e (s.reg16 g) s⟩,
    fun i => ⟨_, rfl, test8_effect (.reg .al) i s⟩, fun i => ⟨_, rfl, test16_effect (.reg .ax) i s⟩,
    fun e i => ⟨_, rfl, test8_effect e i s⟩, fun e i => ⟨_, rfl, test16_effect e i s⟩⟩

/-! One step: the operand moves by one bit, and a bit comes in at the low or the high end (42 R811 to R817). -/

theorem getLsbD_ofNat_bitNat (c : Bool) (i : Nat) :
    (BitVec.ofNat w (bitNat c)).getLsbD i = (decide (i < w) && (decide (i = 0) && c)) := by
  rw [bitNat_eq_toNat, ← BitVec.toNat_ofBool, BitVec.ofNat_toNat, BitVec.getLsbD_setWidth, BitVec.getLsbD_ofBool]

/-- The bits of a step to the left, c coming in. -/
theorem getLsbD_leftStep (x : BitVec w) (c : Bool) (i : Nat) : (x <<< 1 ||| BitVec.ofNat w (bitNat c)).getLsbD i =
    (decide (i < w) && if i = 0 then c else x.getLsbD (i - 1)) := by
  rw [BitVec.getLsbD_or, BitVec.getLsbD_shiftLeft, getLsbD_ofNat_bitNat]
  by_cases hlow : i = 0
  · have hbit : i < 1 := by omega
    rw [if_pos hlow, decide_eq_true hlow, decide_eq_true hbit, Bool.not_true, Bool.and_false, Bool.false_and, Bool.false_or,
      Bool.true_and]
  · have hbit : ¬ i < 1 := by omega
    rw [if_neg hlow, decide_eq_false hlow, decide_eq_false hbit, Bool.not_false, Bool.and_true, Bool.false_and, Bool.and_false,
      Bool.or_false]

/-- The bits of a step to the right, c coming in. -/
theorem getLsbD_rightStep (x : BitVec w) (c : Bool) (i : Nat) :
    (x >>> 1 ||| BitVec.ofNat w (bitNat c) <<< (w - 1)).getLsbD i =
      (decide (i < w) && if i = w - 1 then c else x.getLsbD (i + 1)) := by
  rw [BitVec.getLsbD_or, BitVec.getLsbD_ushiftRight, BitVec.getLsbD_shiftLeft, getLsbD_ofNat_bitNat, Nat.add_comm]
  by_cases hi : i < w
  · by_cases htop : i = w - 1
    · have hout : x.getLsbD (i + 1) = false := BitVec.getLsbD_of_ge x _ (by omega)
      have hlow : ¬ i < w - 1 := by omega
      have hbit : i - (w - 1) = 0 := by omega
      have hpos : 0 < w := by omega
      rw [if_pos htop]
      simp only [hout, hi, hlow, hbit, hpos, decide_true, decide_false, Bool.not_false, Bool.true_and, Bool.false_or]
    · have hlow : i < w - 1 := by omega
      rw [if_neg htop]
      simp only [hi, hlow, decide_true, Bool.not_true, Bool.true_and, Bool.false_and, Bool.and_false, Bool.or_false]
  · have hout : x.getLsbD (i + 1) = false := BitVec.getLsbD_of_ge x _ (by omega)
    simp only [hout, hi, decide_false, Bool.false_and, Bool.or_false]

/-! Rotations. -/

theorem rotateLeft_zero (x : BitVec w) : x.rotateLeft 0 = x := by
  rw [BitVec.rotateLeft_def, Nat.zero_mod, Nat.sub_zero, BitVec.shiftLeft_zero, BitVec.ushiftRight_eq_zero (Nat.le_refl w),
    BitVec.or_zero]

theorem rotateRight_zero (x : BitVec w) : x.rotateRight 0 = x := by
  rw [BitVec.rotateRight_def, Nat.zero_mod, Nat.sub_zero, BitVec.ushiftRight_zero, BitVec.shiftLeft_eq_zero (Nat.le_refl w),
    BitVec.or_zero]

theorem rotateLeft_add (x : BitVec w) (m n : Nat) : x.rotateLeft (m + n) = (x.rotateLeft m).rotateLeft n := by
  refine BitVec.eq_of_getMsbD_eq fun i hi => ?_
  have hmod : (n + i) % w < w := Nat.mod_lt _ (by omega)
  simp only [BitVec.getMsbD_rotateLeft, hi, hmod, decide_true, Bool.true_and, Nat.add_mod_mod, Nat.add_assoc]

theorem getLsbD_rotateRight_mod (x : BitVec w) (n : Nat) {i : Nat} (hi : i < w) :
    (x.rotateRight n).getLsbD i = x.getLsbD ((n + i) % w) := by
  have hn : n % w < w := Nat.mod_lt _ (by omega)
  rw [BitVec.getLsbD_rotateRight, ← Nat.mod_add_mod n w i]
  by_cases hlow : i < w - n % w
  · have hstay : (n % w + i) % w = n % w + i := Nat.mod_eq_of_lt (by omega)
    rw [decide_eq_true hlow, hstay, cond_true]
  · have hwrap : (n % w + i) % w = i - (w - n % w) := by
      rw [Nat.mod_eq_sub_mod (by omega), Nat.mod_eq_of_lt (by omega)]
      omega
    rw [decide_eq_false hlow, hwrap, cond_false, decide_eq_true hi, Bool.true_and]

theorem rotateRight_add (x : BitVec w) (m n : Nat) : x.rotateRight (m + n) = (x.rotateRight m).rotateRight n := by
  refine BitVec.eq_of_getLsbD_eq fun i hi => ?_
  rw [getLsbD_rotateRight_mod _ _ hi, getLsbD_rotateRight_mod _ _ hi, getLsbD_rotateRight_mod _ _ (Nat.mod_lt _ (by omega)),
    Nat.add_mod_mod, Nat.add_assoc]

theorem getLsbD_rotateLeft_one (x : BitVec w) {i : Nat} (hi : i < w) :
    (x.rotateLeft 1).getLsbD i = if i = 0 then x.msb else x.getLsbD (i - 1) := by
  by_cases hlow : i = 0
  · have htop : 1 + (w - 1 - i) = w := by omega
    rw [if_pos hlow, BitVec.msb, BitVec.getLsbD_eq_getMsbD, BitVec.getMsbD_rotateLeft, htop, Nat.mod_self, decide_eq_true hi,
      decide_eq_true (by omega), Bool.true_and, Bool.true_and]
  · have hup : 1 + (w - 1 - i) = w - 1 - (i - 1) := by omega
    rw [if_neg hlow, BitVec.getLsbD_eq_getMsbD, BitVec.getMsbD_rotateLeft, BitVec.getLsbD_eq_getMsbD, hup,
      Nat.mod_eq_of_lt (by omega), decide_eq_true hi, decide_eq_true (by omega), decide_eq_true (by omega), Bool.true_and]

theorem getLsbD_rotateRight_one (x : BitVec w) {i : Nat} (hi : i < w) :
    (x.rotateRight 1).getLsbD i = if i = w - 1 then x.getLsbD 0 else x.getLsbD (i + 1) := by
  rw [getLsbD_rotateRight_mod x 1 hi, Nat.add_comm]
  split
  · rw [show i + 1 = w by omega, Nat.mod_self]
  · rw [Nat.mod_eq_of_lt (by omega)]

/-! A step of each operation as an operation on bit vectors. -/

theorem shiftStep_rol (x : BitVec w) (cf : Bool) : (shiftStep .rol x cf).1 = x.rotateLeft 1 := by
  refine BitVec.eq_of_getLsbD_eq fun i hi => ?_
  rw [shiftStep, getLsbD_leftStep, getLsbD_rotateLeft_one x hi, decide_eq_true hi, Bool.true_and]

theorem shiftStep_ror (x : BitVec w) (cf : Bool) : (shiftStep .ror x cf).1 = x.rotateRight 1 := by
  refine BitVec.eq_of_getLsbD_eq fun i hi => ?_
  rw [shiftStep, getLsbD_rightStep, getLsbD_rotateRight_one x hi, decide_eq_true hi, Bool.true_and]

theorem shiftStep_sar (x : BitVec w) (cf : Bool) : (shiftStep .sar x cf).1 = x.sshiftRight 1 := by
  refine BitVec.eq_of_getLsbD_eq fun i hi => ?_
  rw [shiftStep, getLsbD_rightStep, BitVec.getLsbD_sshiftRight, Nat.add_comm 1 i]
  have hin : ¬ w ≤ i := by omega
  by_cases htop : i = w - 1
  · have hend : ¬ i + 1 < w := by omega
    rw [if_pos htop, if_neg hend, decide_eq_true hi, decide_eq_false hin, Bool.not_false]
  · have hmore : i + 1 < w := by omega
    rw [if_neg htop, if_pos hmore, decide_eq_true hi, decide_eq_false hin, Bool.not_false]

/-- The operand with CF on top, which RCL and RCR rotate (42 R813, R814). -/
def withCarry (r : BitVec w × Bool) : BitVec (1 + w) := BitVec.ofBool r.2 ++ r.1

theorem getLsbD_withCarry (r : BitVec w × Bool) (i : Nat) :
    (withCarry r).getLsbD i = if i = w then r.2 else r.1.getLsbD i :=
  BitVec.getLsbD_cons r.2 r.1 i

theorem shiftStep_rcl (hw : 0 < w) (x : BitVec w) (cf : Bool) :
    withCarry (shiftStep .rcl x cf) = (withCarry (x, cf)).rotateLeft 1 := by
  refine BitVec.eq_of_getLsbD_eq fun i hi => ?_
  simp only [getLsbD_rotateLeft_one _ hi, BitVec.msb_eq_getLsbD_last, getLsbD_withCarry, shiftStep, getLsbD_leftStep]
  by_cases htop : i = w
  · have hpos : ¬ i = 0 := by omega
    have hnext : ¬ i - 1 = w := by omega
    rw [if_pos htop, if_neg hpos, if_neg hnext, htop]
  · have hin : i < w := by omega
    have hnext : ¬ i - 1 = w := by omega
    have hlast : 1 + w - 1 = w := by omega
    rw [if_neg htop, if_neg hnext, if_pos hlast, decide_eq_true hin, Bool.true_and]

theorem shiftStep_rcr (hw : 0 < w) (x : BitVec w) (cf : Bool) :
    withCarry (shiftStep .rcr x cf) = (withCarry (x, cf)).rotateRight 1 := by
  refine BitVec.eq_of_getLsbD_eq fun i hi => ?_
  simp only [getLsbD_rotateRight_one _ hi, getLsbD_withCarry, shiftStep, getLsbD_rightStep]
  by_cases htop : i = w
  · have hlast : i = 1 + w - 1 := by omega
    have hpos : ¬ 0 = w := by omega
    rw [if_pos htop, if_pos hlast, if_neg hpos]
  · have hin : i < w := by omega
    have hmid : ¬ i = 1 + w - 1 := by omega
    have hlast : i = w - 1 ↔ i + 1 = w := by omega
    rw [if_neg htop, if_neg hmid, decide_eq_true hin, Bool.true_and]
    simp only [hlast]

/-! n steps: the value after each, and the bit last shifted out (42 R810). -/

/-- The last of n + 1 steps. -/
theorem shiftSteps_succ (op : ShiftOp) (n : Nat) (x : BitVec w) (cf : Bool) :
    shiftSteps op (n + 1) x cf = shiftStep op (shiftSteps op n x cf).1 (shiftSteps op n x cf).2 := by
  induction n generalizing x cf with
  | zero => rfl
  | succ n ih => exact ih _ _

theorem shiftSteps_shl (n : Nat) (x : BitVec w) (cf : Bool) : (shiftSteps .shl n x cf).1 = x <<< n := by
  induction n with
  | zero => exact (BitVec.shiftLeft_zero x).symm
  | succ n ih => rw [shiftSteps_succ, shiftStep, ih, BitVec.shiftLeft_add]

theorem shiftSteps_shr (n : Nat) (x : BitVec w) (cf : Bool) : (shiftSteps .shr n x cf).1 = x >>> n := by
  induction n with
  | zero => exact (BitVec.ushiftRight_zero x).symm
  | succ n ih => rw [shiftSteps_succ, shiftStep, ih, BitVec.shiftRight_add]

theorem shiftSteps_sar (n : Nat) (x : BitVec w) (cf : Bool) : (shiftSteps .sar n x cf).1 = x.sshiftRight n := by
  induction n with
  | zero => exact BitVec.sshiftRight_zero.symm
  | succ n ih => rw [shiftSteps_succ, shiftStep_sar, ih, BitVec.sshiftRight_add]

theorem shiftSteps_rol (n : Nat) (x : BitVec w) (cf : Bool) : (shiftSteps .rol n x cf).1 = x.rotateLeft n := by
  induction n with
  | zero => exact (rotateLeft_zero x).symm
  | succ n ih => rw [shiftSteps_succ, shiftStep_rol, ih, rotateLeft_add]

theorem shiftSteps_ror (n : Nat) (x : BitVec w) (cf : Bool) : (shiftSteps .ror n x cf).1 = x.rotateRight n := by
  induction n with
  | zero => exact (rotateRight_zero x).symm
  | succ n ih => rw [shiftSteps_succ, shiftStep_ror, ih, rotateRight_add]

theorem shiftSteps_rcl (hw : 0 < w) (n : Nat) (x : BitVec w) (cf : Bool) :
    withCarry (shiftSteps .rcl n x cf) = (withCarry (x, cf)).rotateLeft n := by
  induction n with
  | zero => exact (rotateLeft_zero _).symm
  | succ n ih => rw [shiftSteps_succ, shiftStep_rcl hw, ih, rotateLeft_add]

theorem shiftSteps_rcr (hw : 0 < w) (n : Nat) (x : BitVec w) (cf : Bool) :
    withCarry (shiftSteps .rcr n x cf) = (withCarry (x, cf)).rotateRight n := by
  induction n with
  | zero => exact (rotateRight_zero _).symm
  | succ n ih => rw [shiftSteps_succ, shiftStep_rcr hw, ih, rotateRight_add]

theorem shiftSteps_shl_carry {n : Nat} (hn : 0 < n) (x : BitVec w) (cf : Bool) :
    (shiftSteps .shl n x cf).2 = (decide (n ≤ w) && x.getLsbD (w - n)) := by
  obtain ⟨n, rfl⟩ := Nat.exists_eq_add_one.2 hn
  rw [shiftSteps_succ, shiftStep, shiftSteps_shl, BitVec.msb_shiftLeft, BitVec.getMsbD, Nat.sub_sub, Nat.add_comm 1 n]
  rfl

theorem shiftSteps_shr_carry {n : Nat} (hn : 0 < n) (x : BitVec w) (cf : Bool) :
    (shiftSteps .shr n x cf).2 = x.getLsbD (n - 1) := by
  obtain ⟨n, rfl⟩ := Nat.exists_eq_add_one.2 hn
  rw [shiftSteps_succ, shiftStep, shiftSteps_shr, BitVec.getLsbD_ushiftRight]
  rfl

theorem shiftSteps_sar_carry {n : Nat} (hn : 0 < n) (x : BitVec w) (cf : Bool) :
    (shiftSteps .sar n x cf).2 = (x.sshiftRight (n - 1)).getLsbD 0 := by
  obtain ⟨n, rfl⟩ := Nat.exists_eq_add_one.2 hn
  rw [shiftSteps_succ, shiftStep, shiftSteps_sar]
  rfl

/-- ROL shifts the top bit out and in again at the low end. -/
theorem shiftSteps_rol_carry (hw : 0 < w) {n : Nat} (hn : 0 < n) (x : BitVec w) (cf : Bool) :
    (shiftSteps .rol n x cf).2 = (x.rotateLeft n).getLsbD 0 := by
  obtain ⟨n, rfl⟩ := Nat.exists_eq_add_one.2 hn
  rw [← shiftSteps_rol _ x cf, shiftSteps_succ, shiftStep_rol, getLsbD_rotateLeft_one _ hw]
  rfl

/-- ROR shifts the low bit out and in again at the top. -/
theorem shiftSteps_ror_carry (hw : 0 < w) {n : Nat} (hn : 0 < n) (x : BitVec w) (cf : Bool) :
    (shiftSteps .ror n x cf).2 = (x.rotateRight n).msb := by
  obtain ⟨n, rfl⟩ := Nat.exists_eq_add_one.2 hn
  rw [← shiftSteps_ror _ x cf, shiftSteps_succ, shiftStep_ror, BitVec.msb_eq_getLsbD_last,
    getLsbD_rotateRight_one _ (Nat.sub_one_lt_of_lt hw), if_pos rfl]
  rfl

/-! OF for a count of 1 (42 R811 to R817). -/

theorem shiftOverflow_shiftStep (hw : 1 < w) (op : ShiftOp) (x : BitVec w) (cf : Bool) :
    shiftOverflow op x (shiftStep op x cf).1 (shiftStep op x cf).2 = overflowOfOne op x cf := by
  cases op with
  | rol => rw [shiftOverflow, shiftStep_rol, overflowOfOne, shiftStep]
  | ror => rw [shiftOverflow, shiftStep_ror, overflowOfOne, BitVec.msb_eq_getLsbD_last]
  | rcl =>
    have htop : (shiftStep .rcl x cf).1.msb = x.getLsbD (w - 2) := by
      rw [BitVec.msb_eq_getLsbD_last, shiftStep, getLsbD_leftStep, if_neg (by omega), decide_eq_true (by omega)]
      rfl
    rw [shiftOverflow, htop, overflowOfOne, shiftStep]
  | rcr =>
    have htop : (shiftStep .rcr x cf).1.getLsbD (w - 1) = cf := by
      rw [shiftStep, getLsbD_rightStep, if_pos rfl, decide_eq_true (by omega)]
      rfl
    have hnext : (shiftStep .rcr x cf).1.getLsbD (w - 2) = x.msb := by
      rw [shiftStep, getLsbD_rightStep, if_neg (by omega), decide_eq_true (by omega), BitVec.msb_eq_getLsbD_last,
        show w - 2 + 1 = w - 1 by omega]
      rfl
    rw [shiftOverflow, htop, hnext, overflowOfOne]
  | shl | shr | sar => rfl

/-- Settles O16: n steps by induction on n with the step's own closed form, CF by the last step. -/
theorem shiftStepsClosed : Obligations.ShiftStepsClosed := by
  unfold Obligations.ShiftStepsClosed
  intro w hwidth x cf n
  have hw : 1 < w := by omega
  have hpos : 0 < w := by omega
  exact ⟨shiftSteps_shl n x cf, shiftSteps_shr n x cf, shiftSteps_sar n x cf, shiftSteps_rol n x cf, shiftSteps_ror n x cf,
    shiftSteps_rcl hpos n x cf, shiftSteps_rcr hpos n x cf,
    fun hn => ⟨shiftSteps_shl_carry hn x cf, shiftSteps_shr_carry hn x cf, shiftSteps_sar_carry hn x cf,
      shiftSteps_rol_carry hpos hn x cf, shiftSteps_ror_carry hpos hn x cf⟩,
    fun op => shiftOverflow_shiftStep hw op x cf⟩

/-! The forms of group 2 (42 R810 to R817, 31 R505). -/

theorem shiftFlags_eq_shiftFlagsAfter (hw : 1 < w) (op : ShiftOp) (n : Nat) (x : BitVec w) (af o : Bool) (f : Flags) :
    shiftFlags op n x af o f = shiftFlagsAfter op n x af o f := by
  have hovf : (if n = 1 then shiftOverflow op x (shiftSteps op n x f.cf).1 (shiftSteps op n x f.cf).2 else o) =
      if n = 1 then overflowOfOne op x f.cf else o := by
    split
    · rename_i h
      rw [h]
      exact shiftOverflow_shiftStep hw op x f.cf
    · rfl
  unfold shiftFlags shiftFlagsAfter
  dsimp only
  rw [hovf]
  cases op <;> rfl

/-- Result and flags of a shift or rotate of the value that a read has given. -/
theorem Effect.shift {s u : State} (h : Effect s u s.cpu s.bus []) (hw : 1 < w) (op : ShiftOp) (n : Nat) (x : BitVec w) :
    (shift op n x u).1 = (shiftSteps op n x s.cpu.flags.cf).1 ∧
      ∃ af o, Effect s (shift op n x u).2 (s.cpu.putFlags (shiftFlagsAfter op n x af o s.cpu.flags)) s.bus [] := by
  have hdraws := (h.quiet (drawBit_effect u)).quiet (drawBit_effect _)
  refine ⟨by rw [Machine.shift, h.1], (drawBit u).1, (drawBit (drawBit u).2).1, ?_⟩
  rw [← shiftFlags_eq_shiftFlagsAfter hw]
  exact hdraws.mapFlags _

theorem shiftRM8_effect (op : ShiftOp) (n : Nat) (e : RM8) (s : State) : ShiftByte op n e s (shiftRM8 op n e s) := by
  obtain ⟨hx, h⟩ := readLoc8_effect e s
  obtain ⟨hvalue, af, o, hflags⟩ := h.shift (by decide) op n (readLoc8 (locate8 e s) s).1
  refine ⟨_, af, o, hx, ?_⟩
  unfold shiftRM8
  split
  · exact h.quiet (rewriteLoc8_effect ..)
  · rw [← hvalue]
    exact hflags.writeLoc8 rfl e _

theorem shiftRM16_effect (op : ShiftOp) (n : Nat) (e : RM16) (s : State) : ShiftWord op n e s (shiftRM16 op n e s) := by
  obtain ⟨hx, h⟩ := readLoc16_effect e s
  obtain ⟨hvalue, af, o, hflags⟩ := h.shift (by decide) op n (readLoc16 (locate16 e s) s).1
  refine ⟨_, af, o, hx, ?_⟩
  unfold shiftRM16
  split
  · exact h.quiet (rewriteLoc16_effect ..)
  · rw [← hvalue]
    exact hflags.writeLoc16 rfl e _

theorem exec_shiftEb1 (op : ShiftOp) (e : RM8) (s : State) : exec (shiftEb1 op e) s = .next (shiftRM8 op 1 e s) := by
  cases op <;> rfl

theorem exec_shiftEv1 (op : ShiftOp) (e : RM16) (s : State) : exec (shiftEv1 op e) s = .next (shiftRM16 op 1 e s) := by
  cases op <;> rfl

theorem exec_shiftEbCl (op : ShiftOp) (e : RM8) (s : State) :
    exec (shiftEbCl op e) s = .next (shiftRM8 op (countCl s) e s) := by cases op <;> rfl

theorem exec_shiftEvCl (op : ShiftOp) (e : RM16) (s : State) :
    exec (shiftEvCl op e) s = .next (shiftRM16 op (countCl s) e s) := by cases op <;> rfl

/-- Settles O17: each form is the shared one of its width, with a count of 1 or CL. -/
theorem shiftForms : Obligations.ShiftForms := by
  unfold Obligations.ShiftForms
  exact fun op s => ⟨fun e => ⟨_, exec_shiftEb1 op e s, shiftRM8_effect op 1 e s⟩,
    fun e => ⟨_, exec_shiftEv1 op e s, shiftRM16_effect op 1 e s⟩,
    fun e => ⟨_, exec_shiftEbCl op e s, shiftRM8_effect op _ e s⟩,
    fun e => ⟨_, exec_shiftEvCl op e s, shiftRM16_effect op _ e s⟩⟩

end Sys2Proof.Machine

/-! Strings (43_string): one iteration of each operation, the REP state machine, and the REP step with what interrupts it. -/

namespace Sys2Proof.Machine

open Sys2Proof.Claims

/-! One element (43 R900, R901, R903, R904). -/

theorem add_stringDelta (wide : Bool) (s : State) (x : Word) : x + stringDelta wide s = moved wide s.cpu.flags x := by
  unfold stringDelta moved
  dsimp only
  split
  · exact (BitVec.sub_eq_add_neg ..).symm
  · rfl

/-- An index moved after an effect that has left it and DF as they were. -/
theorem Effect.stepIndex {s u : State} {c : Cpu} {b : Bus} {x : List LinAddr} (h : Effect s u c b x) {r : Reg16}
    (hr : c.regs.get r = s.reg16 r) (hdf : c.flags.df = s.cpu.flags.df) (wide : Bool) :
    Effect s (stepIndex r wide u) (c.put16 r (moved wide s.cpu.flags (s.reg16 r))) b x := by
  have hv : u.reg16 r + stringDelta wide u = moved wide s.cpu.flags (s.reg16 r) := by
    rw [add_stringDelta, State.reg16, h.1, hr, moved, hdf, moved]
  rw [Machine.stepIndex, hv]
  exact h.put16 r _

theorem loByte_zext16 (v : Byte) : loByte (zext16 v) = v :=
  (BitVec.setWidth_setWidth_of_le v (by decide)).trans (BitVec.setWidth_eq v)

/-- An element read after an effect on neither CPU nor bus. -/
theorem Effect.readElem {s u : State} (h : Effect s u s.cpu s.bus []) (wide : Bool) (r : Sreg) (off : Word) :
    ReadsElem s.bus wide (s.seg r) off (readElem wide r off u).1 ∧
      Effect s (readElem wide r off u).2 s.cpu s.bus [] := by
  obtain ⟨hword, hbyte, k⟩ := readElem_effect wide r off u
  rw [h.2.1, seg_of_cpu h.1] at hword hbyte
  refine ⟨?_, h.quiet k⟩
  cases wide with
  | true => exact hword rfl
  | false =>
    obtain ⟨v, hv, e⟩ := hbyte rfl
    rw [e, ReadsElem, if_neg Bool.false_ne_true, loByte_zext16]
    exact ⟨rfl, hv⟩

/-- An element written after an effect on neither CPU nor bus. -/
theorem Effect.writeElem {s u : State} (h : Effect s u s.cpu s.bus []) (wide : Bool) (r : Sreg) (off v : Word) :
    Effect s (writeElem wide r off v u) s.cpu (storeElem s.bus wide (s.seg r) off v) (elemCells wide (s.seg r) off) := by
  have k := h.trans (writeElem_effect wide r off v u)
  rwa [h.1, h.2.1, seg_of_cpu h.1] at k

theorem readAcc_of_cpu {s t : State} (h : t.cpu = s.cpu) (wide : Bool) : readAcc wide t = accOf wide s := by
  rw [readAcc, accOf, reg16_of_cpu h, reg8_of_cpu h]

theorem Effect.writeAcc {s u : State} (h : Effect s u s.cpu s.bus []) (wide : Bool) (v : Word) :
    Effect s (writeAcc wide v u) (if wide then s.cpu.put16 .ax v else s.cpu.put8 .al (loByte v)) s.bus [] := by
  cases wide with
  | true => exact h.put16 .ax v
  | false => exact h.put8 .al (loByte v)

theorem compareFlags_df (wide : Bool) (a b : Word) (f : Flags) : (compareFlags wide a b f).df = f.df := by
  cases wide <;> rfl

/-! One iteration (43 R902 to R906). -/

theorem stringIteration_iteration (op : StringOp) (wide : Bool) (ovr : Option Sreg) (s : State) :
    Iteration op wide ovr s (stringIteration op wide ovr s) := by
  cases op with
  | movs =>
    obtain ⟨hv, h⟩ := (Effect.refl s).readElem wide (ovr.getD .ds) (s.reg16 .si)
    refine ⟨_, hv, ?_⟩
    rw [stringIteration, reg16_of_cpu h.1]
    exact ((h.writeElem wide .es _ _).stepIndex rfl rfl wide).stepIndex rfl rfl wide
  | cmps =>
    obtain ⟨ha, h⟩ := (Effect.refl s).readElem wide (ovr.getD .ds) (s.reg16 .si)
    obtain ⟨hb, k⟩ := h.readElem wide .es (s.reg16 .di)
    refine ⟨_, _, ha, hb, ?_⟩
    rw [stringIteration, reg16_of_cpu h.1]
    have hdf := compareFlags_df wide (readElem wide (ovr.getD .ds) (s.reg16 .si) s).1
      (readElem wide .es (s.reg16 .di) (readElem wide (ovr.getD .ds) (s.reg16 .si) s).2).1 s.cpu.flags
    exact ((k.mapFlags _).stepIndex rfl hdf wide).stepIndex rfl hdf wide
  | scas =>
    obtain ⟨hb, h⟩ := (Effect.refl s).readElem wide .es (s.reg16 .di)
    refine ⟨_, hb, ?_⟩
    rw [stringIteration, readAcc_of_cpu h.1]
    exact (h.mapFlags _).stepIndex rfl (compareFlags_df ..) wide
  | lods =>
    obtain ⟨hv, h⟩ := (Effect.refl s).readElem wide (ovr.getD .ds) (s.reg16 .si)
    refine ⟨_, hv, (h.writeAcc wide _).stepIndex ?_ ?_ wide⟩ <;> cases wide <;> rfl
  | stos => exact ((Effect.refl s).writeElem wide .es _ _).stepIndex rfl rfl wide

/-- CX is no operand of an iteration. -/
theorem stringIteration_cx (op : StringOp) (wide : Bool) (ovr : Option Sreg) (s : State) :
    (stringIteration op wide ovr s).reg16 .cx = s.reg16 .cx := by
  have h := stringIteration_iteration op wide ovr s
  rw [State.reg16]
  cases op with
  | movs | scas | lods =>
    obtain ⟨_, _, hcpu, _⟩ := h
    rw [hcpu]
    cases wide <;> rfl
  | cmps =>
    obtain ⟨_, _, _, _, hcpu, _⟩ := h
    rw [hcpu]
    rfl
  | stos =>
    obtain ⟨hcpu, _⟩ := h
    rw [hcpu]
    rfl

/-! The REP state machine (43 R910). -/

theorem comparesOp_iff (op : StringOp) : comparesOp op = true ↔ op = .cmps ∨ op = .scas := by
  cases op <;> decide

theorem repStops_iff (r : RepRun) (s : State) : repStops r s = true ↔ Stops r s.cpu := by
  rw [repStops, Stops, Bool.or_eq_true, Bool.and_eq_true, beq_iff_eq, comparesOp_iff]
  cases r.rep <;> simp [State.reg16, RegFile.get]

theorem repIteration_iterates (r : RepRun) (s : State) : RepIteration r s (repIteration r s) := by
  refine ⟨_, stringIteration_iteration r.op r.wide r.segOverride s, ?_⟩
  rw [← stringIteration_cx r.op r.wide r.segOverride s]
  refine ⟨fun hstop => ?_, fun hgo => ?_⟩
  · rw [repIteration, (repStops_iff r _).2 hstop]
    rfl
  · rw [repIteration, eq_false_of_ne_true (mt (repStops_iff r _).1 hgo)]
    rfl

theorem exec_stringOf (op : StringOp) (wide : Bool) (s : State) : exec (stringOf op wide) s = .next (stringInstr op wide s) := by
  cases op <;> cases wide <;> rfl

theorem stringInstr_once {s : State} (h : s.cpu.pfx.rep = none) (op : StringOp) (wide : Bool) :
    stringInstr op wide s = stringIteration op wide s.cpu.pfx.segOverride s := by
  rw [stringInstr, h]

theorem stringInstr_rep {s : State} {k : RepKind} (h : s.cpu.pfx.rep = some k) (op : StringOp) (wide : Bool) :
    stringInstr op wide s = if s.reg16 .cx = 0 then s else repIteration (runOf op wide k s) s := by
  rw [stringInstr, h]
  rfl

/-- Settles O28: `stringInstr` makes one iteration, or under REP the first of its run, where CX is not 0. -/
theorem stringForms : Obligations.StringForms := by
  unfold Obligations.StringForms
  refine ⟨fun op wide s hrep => ⟨_, exec_stringOf op wide s, ?_⟩, fun op wide k s hrep => ⟨fun hcx => ?_, fun hcx => ?_⟩⟩
  · rw [stringInstr_once hrep]
    exact stringIteration_iteration op wide _ s
  · rw [exec_stringOf, stringInstr_rep hrep, if_pos hcx]
  · refine ⟨_, exec_stringOf op wide s, ?_⟩
    rw [stringInstr_rep hrep, if_neg hcx]
    exact repIteration_iterates _ s

/-! States alike but for the BIU: what an interrupt entry needs of the state it starts from. -/

/-- From s to t nothing has changed but the BIU, the history, the consumed schedules and the free values. -/
def AlikeButBiu (s t : State) : Prop := t.cpu = s.cpu ∧ t.bus = s.bus ∧ t.dev = s.dev ∧ Frame s t []

theorem AlikeButBiu.mapCpu {s t : State} (h : AlikeButBiu s t) (f : Cpu → Cpu) : AlikeButBiu (s.mapCpu f) (t.mapCpu f) := by
  obtain ⟨hcpu, hbus, hdev, hframe⟩ := h
  exact ⟨congrArg f hcpu, hbus, hdev, { hframe with }⟩

theorem AlikeButBiu.mapPic {s t : State} (h : AlikeButBiu s t) (f : Pic → Pic) : AlikeButBiu (s.mapPic f) (t.mapPic f) := by
  obtain ⟨hcpu, hbus, hdev, hframe⟩ := h
  exact ⟨hcpu, hbus, congrArg (fun d : Devices => { d with pic := f d.pic }) hdev, { hframe with }⟩

theorem AlikeButBiu.intrDue {s t : State} (h : AlikeButBiu s t) : intrDue t = intrDue s := by
  obtain ⟨hcpu, _, hdev, _⟩ := h
  rw [Machine.intrDue, hcpu, hdev, Machine.intrDue]

/-- An entry's source may have any BIU. -/
theorem AlikeButBiu.enters {s t u : State} (h : AlikeButBiu s t) {n : Byte} {ret : Word} {f : Flags} (k : Enters n ret f t u) :
    Enters n ret f s u := by
  obtain ⟨hcpu, hbus, hdev, hframe⟩ := h
  obtain ⟨o, sel, ho, hsel, k⟩ := k
  simp only [reg16_of_cpu hcpu, seg_of_cpu hcpu, hcpu, hbus] at ho hsel k
  obtain ⟨kcpu, kbus, kdev, kflushed, kframe⟩ := k
  exact ⟨o, sel, ho, hsel, kcpu, kbus, kdev.trans hdev, kflushed, hframe.trans kframe⟩

/-- A jump is its change of IP, and the flush. -/
theorem jumpNear_alike (o : Word) (s : State) : AlikeButBiu (s.setIp o) (jumpNear o s) := by
  obtain ⟨hcpu, hbus, hdev, hframe⟩ := flushQueue_effect (s.setIp o)
  exact ⟨hcpu, hbus, hdev, { hframe with }⟩

/-! A boundary entry (60 R1230) by a state alike but for the BIU. -/

theorem AlikeButBiu.entersNmi {s t : State} (h : AlikeButBiu s t) (hn : s.cpu.nmiLatch = true) :
    ∃ u, boundaryEntry t = .next u ∧ Enters 2 s.cpu.ip s.cpu.flags (s.mapCpu fun c => { c with nmiLatch := false }) u := by
  have hcpu := h.1
  rw [← hcpu] at hn ⊢
  exact ⟨_, boundaryEntry_of_nmi hn, (h.mapCpu _).enters (enter_enters 2 t.cpu.ip _)⟩

theorem AlikeButBiu.entersTrap {s t : State} (h : AlikeButBiu s t) (hn : s.cpu.nmiLatch = false)
    (hi : Machine.intrDue s = false) :
    ∃ u, boundaryEntry t = .next u ∧ Enters 1 s.cpu.ip s.cpu.flags (s.mapCpu fun c => { c with trapPending := false }) u := by
  rw [← h.intrDue] at hi
  have hcpu := h.1
  rw [← hcpu] at hn ⊢
  exact ⟨_, boundaryEntry_of_trap hn hi, (h.mapCpu _).enters (enter_enters 1 t.cpu.ip _)⟩

theorem AlikeButBiu.entersIntr {s t : State} (h : AlikeButBiu s t) (hn : s.cpu.nmiLatch = false)
    (hi : Machine.intrDue s = true) {v : Byte} {p : Pic} (hp : s.dev.pic.acknowledge = some (v, p)) :
    ∃ u, boundaryEntry t = .next u ∧ Enters v s.cpu.ip s.cpu.flags (s.mapPic fun _ => p) u := by
  rw [← h.intrDue] at hi
  have hpic := h.mapPic fun _ => p
  obtain ⟨hcpu, _, hdev, _⟩ := h
  rw [← hcpu] at hn ⊢
  rw [← hdev] at hp
  obtain ⟨u, hu, k⟩ := boundaryEntry_of_intr hn hi hp
  exact ⟨u, hu, hpic.enters k⟩

theorem AlikeButBiu.refusesIntr {s t : State} (h : AlikeButBiu s t) (hn : s.cpu.nmiLatch = false)
    (hi : Machine.intrDue s = true) (hp : s.dev.pic.acknowledge = none) : boundaryEntry t = .refused .acknowledgeForm := by
  rw [← h.intrDue] at hi
  obtain ⟨hcpu, _, hdev, _⟩ := h
  rw [← hcpu] at hn
  rw [← hdev] at hp
  exact boundaryEntry_of_refused hn hi hp

/-! The REP step (43 R911, R912, 60 R1213). -/

theorem cpuStep_of_repRun {s : State} {r : RepRun} (hf : s.marks.fault = none) (hr : s.marks.refusal = none)
    (hh : s.cpu.halted = false) (h : s.cpu.repRun = some r) : cpuStep s = repStep r s := by
  simp only [cpuStep, hf, hr, hh, h, Bool.false_eq_true, if_false]

theorem repInterrupted_iff (s : State) : repInterrupted s = true ↔ s.cpu.nmiLatch = true ∨ intrDue s = true ∨
    (s.params.repTfPerIteration = true ∧ s.cpu.tempTF = true) := by
  rw [repInterrupted, Bool.or_eq_true, Bool.or_eq_true, Bool.and_eq_true, or_assoc]

/-- Where an interrupted run's IP goes back to. -/
def resumeIp (r : RepRun) (s : State) : Word :=
  match s.params.repResume with | .lastPrefix => r.ipLastPfx | .firstPrefix => r.ipStart

/-- The CPU at the entry of an interrupted run. -/
def rewoundCpu (r : RepRun) (s : State) (c : Cpu) : Cpu :=
  { c with ip := resumeIp r s, repRun := none, pfx := PrefixState.none, f1 := false
           trapPending := c.trapPending || (s.params.repTfPerIteration && c.tempTF) }

theorem rewindRep_eq (r : RepRun) (s : State) :
    rewindRep r s = (clearPrefixes ((jumpNear (resumeIp r s) s).setRepRun none)).mapCpu fun c =>
      { c with trapPending := c.trapPending || (s.params.repTfPerIteration && s.cpu.tempTF) } := by
  unfold rewindRep
  cases s.params.repTfPerIteration && s.cpu.tempTF with
  | false =>
    simp only [Bool.or_false]
    rfl
  | true =>
    simp only [Bool.or_true]
    rfl

theorem rewindRep_alike (r : RepRun) (s : State) : AlikeButBiu (s.mapCpu (rewoundCpu r s)) (rewindRep r s) := by
  rw [rewindRep_eq]
  exact (((jumpNear_alike (resumeIp r s) s).mapCpu _).mapCpu _).mapCpu _

theorem repStep_of_quiet {r : RepRun} {s : State} (h : ¬ repInterrupted s = true) :
    repStep r s = .next (finishInstruction false (repIteration r s)) :=
  if_neg h

theorem repStep_of_interrupted {r : RepRun} {s : State} (h : repInterrupted s = true) :
    repStep r s = boundaryEntry (rewindRep r s) :=
  if_pos h

/-- Settles O43: a quiet step iterates; an interrupted one is the boundary entry of the rewound state, whose cases are NMI, the
acknowledged or refused INTR, and the trap. -/
theorem repSteps : Obligations.RepSteps := by
  unfold Obligations.RepSteps
  intro s r hf hr hh hrun
  rw [cpuStep_of_repRun hf hr hh hrun, ← intrDue_iff]
  have hrewound := rewindRep_alike r s
  refine ⟨fun hn hi ht => ⟨_, repIteration_iterates r s, repStep_of_quiet ?_⟩, fun hn => ?_, fun hn hi => ?_, fun hn hi ht => ?_⟩
  · rw [repInterrupted_iff, hn]
    exact not_or.2 ⟨Bool.false_ne_true, not_or.2 ⟨hi, ht⟩⟩
  · rw [repStep_of_interrupted ((repInterrupted_iff s).2 (.inl hn))]
    exact hrewound.entersNmi hn
  · rw [repStep_of_interrupted ((repInterrupted_iff s).2 (.inr (.inl hi)))]
    exact ⟨fun v p hp => hrewound.entersIntr hn hi hp, fun hp => hrewound.refusesIntr hn hi hp⟩
  · rw [repStep_of_interrupted ((repInterrupted_iff s).2 (.inr (.inr ht)))]
    exact hrewound.entersTrap hn (eq_false_of_ne_true hi)

end Sys2Proof.Machine

/-! Control transfer (44_control_transfer): jumps, calls, returns, loops and software interrupts, each from what one jump, one
push and one pop leave. -/

namespace Sys2Proof.Machine

open Sys2Proof.Claims

/-! Transfers and stack operations after an effect (00 R12, R13). -/

section

variable {s u : State} {c : Cpu} {b : Bus} {x : List LinAddr} (h : Effect s u c b x)

include h

theorem Effect.jumpNear (t : Word) : Transfer s (jumpNear t u) (c.putIp t) b x := by
  have k := h.transfer (jumpNear_transfer t u)
  rwa [h.1, h.2.1, List.append_nil] at k

theorem Effect.jumpFar (sel off : Word) : Transfer s (jumpFar sel off u) ((c.putSeg .cs sel).putIp off) b x := by
  have k := h.transfer (jumpFar_transfer sel off u)
  rwa [h.1, h.2.1, List.append_nil] at k

theorem Effect.pop : ReadsWord b (c.segs.get .ss) (c.regs.get .sp) (pop u).1 ∧
    Effect s (pop u).2 (c.put16 .sp (c.regs.get .sp + 2)) b x := by
  obtain ⟨hread, hpop⟩ := pop_effect u
  have k := h.trans hpop
  rw [State.reg16, State.seg, h.1, h.2.1] at hread
  rw [State.reg16, h.1, h.2.1, List.append_nil] at k
  exact ⟨hread, k⟩

theorem Effect.releaseStack (n : Word) : Effect s (releaseStack n u) (c.put16 .sp (c.regs.get .sp + n)) b x := by
  rw [Machine.releaseStack, State.reg16, h.1]
  exact h.put16 .sp _

theorem Effect.pushJump (v : Word) (jump : Cpu → Cpu) : CallTransfer s (pushJump v jump u)
    (jump (c.put16 .sp (c.regs.get .sp - 2))) (b.storeWord (c.segs.get .ss) (c.regs.get .sp - 2) v)
    (x ++ wordCells (c.segs.get .ss) (c.regs.get .sp - 2)) := by
  have k := h.call (pushJump_transfer v jump u)
  rwa [State.reg16, State.seg, h.1, h.2.1] at k

end

/-! The unconditional jumps (44 R1000 to R1005). -/

/-- Settles O29: each form is one near or far jump, after the read of its target where that is indirect. -/
theorem jumpForms : Obligations.JumpForms := by
  unfold Obligations.JumpForms
  refine fun s => ⟨fun rel => ⟨_, rfl, jumpNear_transfer _ s⟩, fun rel => ⟨_, rfl, jumpNear_transfer _ s⟩,
    fun off seg => ⟨_, rfl, jumpFar_transfer seg off s⟩, fun e => ?_, fun m => ?_⟩
  · obtain ⟨hv, h⟩ := readRM16_effect e s
    exact ⟨_, _, hv, rfl, h.jumpNear _⟩
  · obtain ⟨hptr, h⟩ := readFarPtr_effect m s
    exact ⟨_, _, _, hptr, rfl, h.jumpFar _ _⟩

/-! The conditional jumps and the loops (44 R1003, R1014 to R1017). -/

/-- A conditional jump: the near jump if the condition holds, nothing at all if not. -/
theorem jumpIf_does {q : Bool} {p : Prop} (hq : q = true ↔ p) (rel : Byte) (s : State) :
    (p → Jumped (s.cpu.ip + sext16 rel) s (jumpIf q rel s)) ∧ (¬ p → jumpIf q rel s = s) := by
  refine ⟨fun hp => ?_, fun hp => if_neg (mt hq.1 hp)⟩
  rw [jumpIf, if_pos (hq.2 hp)]
  exact jumpNear_transfer _ s

/-- The model's condition and the table of 44 R1003 agree, code by code. -/
theorem cond_iff_holds (cc : BitVec 4) (f : Flags) : cond cc f = true ↔ holds cc.toFin f := by
  have hnot (b : Bool) : (!b) = true ↔ b = false := (Bool.not_eq_true' b).to_iff
  have hand (a b : Bool) : (a && b) = true ↔ a = true ∧ b = true := (Bool.and_eq_true a b).to_iff
  have hor (a b : Bool) : (a || b) = true ↔ a = true ∨ b = true := (Bool.or_eq_true a b).to_iff
  match cc with
  | ⟨⟨0, _⟩⟩ | ⟨⟨2, _⟩⟩ | ⟨⟨4, _⟩⟩ | ⟨⟨8, _⟩⟩ | ⟨⟨10, _⟩⟩ => exact Iff.rfl
  | ⟨⟨1, _⟩⟩ | ⟨⟨3, _⟩⟩ | ⟨⟨5, _⟩⟩ | ⟨⟨9, _⟩⟩ | ⟨⟨11, _⟩⟩ => exact hnot _
  | ⟨⟨6, _⟩⟩ => exact hor _ _
  | ⟨⟨7, _⟩⟩ => exact (hand _ _).trans (and_congr (hnot _) (hnot _))
  | ⟨⟨12, _⟩⟩ => exact bne_iff_ne
  | ⟨⟨13, _⟩⟩ => exact beq_iff_eq
  | ⟨⟨14, _⟩⟩ => exact (hor _ _).trans (or_congr Iff.rfl bne_iff_ne)
  | ⟨⟨15, _⟩⟩ => exact (hand _ _).trans (and_congr (hnot _) beq_iff_eq)
  | ⟨⟨n + 16, hn⟩⟩ => exact absurd hn (by omega)

theorem encode_jcc (cc : Fin 16) (rel : Byte) : encode (jcc cc rel) = [BitVec.ofNat 8 (0x70 + cc.val), rel] := by
  match cc with
  | ⟨0, _⟩ | ⟨1, _⟩ | ⟨2, _⟩ | ⟨3, _⟩ | ⟨4, _⟩ | ⟨5, _⟩ | ⟨6, _⟩ | ⟨7, _⟩ | ⟨8, _⟩ | ⟨9, _⟩ | ⟨10, _⟩ | ⟨11, _⟩ | ⟨12, _⟩
  | ⟨13, _⟩ | ⟨14, _⟩ | ⟨15, _⟩ => rfl
  | ⟨n + 16, hn⟩ => exact absurd hn (by omega)

/-- Settles O30: a code's jump has the condition of the code, and its opcode is 70 + cc. -/
theorem conditionalJumps : Obligations.ConditionalJumps := by
  unfold Obligations.ConditionalJumps
  exact fun cc rel s => ⟨encode_jcc cc rel, _, exec_jcc ⟨cc⟩ rel s, jumpIf_does (cond_iff_holds ⟨cc⟩ s.cpu.flags) rel s⟩

/-- A loop instruction decrements CX, then is a conditional jump on CX and its own condition. -/
theorem loopIf_looped {q : Bool} {p : Prop} (hq : q = true ↔ p) (rel : Byte) (s : State) :
    Looped p rel s (loopIf q rel s) := by
  have hcond : ((decCx s).reg16 .cx != 0 && q) = true ↔ s.reg16 .cx - 1 ≠ 0 ∧ p := by
    rw [decCx, reg16_setReg16_same, Bool.and_eq_true, bne_iff_ne, hq]
  exact jumpIf_does hcond rel (decCx s)

/-- Settles O32: the loops are `loopIf` of their condition on ZF; JCXZ is a conditional jump on CX. -/
theorem loopForms : Obligations.LoopForms := by
  unfold Obligations.LoopForms
  exact fun rel s => ⟨⟨_, rfl, loopIf_looped (iff_of_true rfl trivial) rel s⟩, ⟨_, rfl, loopIf_looped Iff.rfl rel s⟩,
    ⟨_, rfl, loopIf_looped (Bool.not_eq_true' _).to_iff rel s⟩, ⟨_, rfl, jumpIf_does beq_iff_eq rel s⟩⟩

/-! Calls and returns (44 R1006 to R1013). -/

theorem callNear_called (t : Word) (s : State) : NearCalled t s (callNear t s) :=
  (pushJump_transfer s.cpu.ip (fun c => c.putIp t) (suspendFetch s)).of_suspended

/-- The push of the return offset stands below that of CS. -/
theorem callFar_called (sel off : Word) (s : State) : FarCalled sel off s (callFar sel off s) := by
  have hcall := ((push_effect (s.seg .cs) (suspendFetch s)).pushJump s.cpu.ip
    fun c => (c.putSeg .cs sel).putIp off).of_suspended
  have hsp : s.reg16 .sp - 2 - 2 = s.reg16 .sp - 4 := sub_two_two _
  rw [put16_put16_same, put16_regs, RegFile.get_set_same, suspendFetch_reg16, hsp] at hcall
  exact hcall

/-- A near call after its target has been read. -/
theorem Effect.nearCalled {t : Word} {s u v : State} (h : Effect s u s.cpu s.bus []) (k : NearCalled t u v) :
    NearCalled t s v := by
  have hcall := h.call k
  rwa [reg16_of_cpu h.1, seg_of_cpu h.1, h.1, h.2.1] at hcall

/-- A far call after its target has been read. -/
theorem Effect.farCalled {sel off : Word} {s u v : State} (h : Effect s u s.cpu s.bus []) (k : FarCalled sel off u v) :
    FarCalled sel off s v := by
  have hcall := h.call k
  rwa [reg16_of_cpu h.1, seg_of_cpu h.1, seg_of_cpu h.1, h.1, h.2.1] at hcall

theorem retNear_returned (n : Word) (s : State) : NearReturned n s (retNear n s) := by
  obtain ⟨htop, hpop⟩ := pop_effect (suspendFetch s)
  have hret := ((hpop.releaseStack n).jumpNear (pop (suspendFetch s)).1).of_suspended
  rw [put16_put16_same, put16_regs, RegFile.get_set_same] at hret
  exact ⟨_, htop, hret⟩

theorem retFar_returned (n : Word) (s : State) : FarReturned n s (retFar n s) := by
  obtain ⟨htop, hoff⟩ := pop_effect (suspendFetch s)
  obtain ⟨hnext, hsel⟩ := hoff.pop
  have hret := ((hsel.releaseStack n).jumpFar (pop (pop (suspendFetch s)).2).1 (pop (suspendFetch s)).1).of_suspended
  rw [put16_regs, RegFile.get_set_same] at hnext hret
  have hsp : s.reg16 .sp + 2 + 2 = s.reg16 .sp + 4 := add_two_two _
  rw [put16_put16_same, put16_put16_same, put16_regs, RegFile.get_set_same, suspendFetch_reg16, hsp] at hret
  exact ⟨_, _, htop, hnext, hret⟩

/-- Settles O31: every form is `callNear`, `callFar`, `retNear` or `retFar`, an indirect target read first. -/
theorem callReturnForms : Obligations.CallReturnForms := by
  unfold Obligations.CallReturnForms
  refine fun s => ⟨fun rel => ⟨_, rfl, callNear_called _ s⟩, fun off seg => ⟨_, rfl, callFar_called seg off s⟩,
    fun e => ?_, fun m => ?_, ⟨_, rfl, retNear_returned 0 s⟩, fun i => ⟨_, rfl, retNear_returned i s⟩,
    ⟨_, rfl, retFar_returned 0 s⟩, fun i => ⟨_, rfl, retFar_returned i s⟩⟩
  · obtain ⟨hv, h⟩ := readRM16_effect e s
    exact ⟨_, _, hv, rfl, h.nearCalled (callNear_called _ _)⟩
  · obtain ⟨hptr, h⟩ := readFarPtr_effect m s
    exact ⟨_, _, _, hptr, rfl, h.farCalled (callFar_called _ _ _)⟩

/-! Software interrupts (44 R1018 to R1021, 60 R1220). -/

/-- Settles O33: INT n, INT 3 and a taken INTO are `enter` of their vector with the next offset; IRET is the three pops. -/
theorem interruptForms : Obligations.InterruptForms := by
  unfold Obligations.InterruptForms
  refine fun s => ⟨fun i => ⟨_, rfl, enter_enters i _ s⟩, ⟨_, rfl, enter_enters 3 _ s⟩,
    ⟨_, rfl, fun hovf => ?_, fun hovf => if_neg (Bool.eq_false_iff.1 hovf)⟩, ?_⟩
  · rw [if_pos hovf]
    exact enter_enters 4 _ s
  · obtain ⟨o, sel, f, htop, hsel, hflags, h⟩ := interruptReturn_transfer s
    exact ⟨o, sel, f, _, htop, hsel, hflags, rfl, h⟩

end Sys2Proof.Machine

/-! Processor control (45_processor_control): the flag instructions, NOP, HLT with the way of its bus cycle to a passive bus,
WAIT and ESC. -/

namespace Sys2Proof.Machine

open Sys2Proof.Claims

/-! The flag instructions (45 R1100 to R1105, R1107). -/

/-- Settles O35: each instruction is `mapFlags` of the change of its flag. -/
theorem flagControl : Obligations.FlagControl := by
  unfold Obligations.FlagControl
  exact ⟨rfl, rfl, rfl, rfl, rfl, rfl, rfl, fun s => ⟨⟨_, rfl, mapFlags_effect _ s⟩, ⟨_, rfl, mapFlags_effect _ s⟩,
    ⟨_, rfl, mapFlags_effect _ s⟩, ⟨_, rfl, mapFlags_effect _ s⟩, ⟨_, rfl, mapFlags_effect _ s⟩,
    ⟨_, rfl, mapFlags_effect _ s⟩, ⟨_, rfl, mapFlags_effect _ s⟩⟩⟩

/-! A code fetch in progress runs to its end (21 R308, R321, R329). -/

/-- The PFP that the code fetch in progress leads to is the same after a clock, whether or not the fetch ends in it. -/
theorem clock_land_pfp (op : QueueOp) (v : Option Byte) (s : State) : (s.clock op v).biu.land.pfp = s.biu.land.pfp := by
  obtain ⟨c, _, ⟨e, _⟩ | e⟩ := clock_does op v s
  · rw [e]; rfl
  · rw [e]; exact BitVec.add_zero _

theorem toData_land_pfp (s : State) : s.toData.biu.land.pfp = s.biu.land.pfp := by
  unfold State.toData
  split
  · rw [clock_land_pfp, clock_land_pfp]
  · rw [clock_land_pfp]
  all_goals rfl

/-- Settled, PFP has advanced by the code fetch in progress. -/
theorem settle_pfp (s : State) : s.settle.biu.pfp = s.biu.land.pfp := toData_land_pfp s

/-- Settled, the byte of the code fetch in progress, if any, stands behind the queue. -/
theorem settle_queue (s : State) : ∃ l, s.settle.biu.queue = s.biu.queue ++ l ∧ l.map QueueByte.addr = s.biu.fetching.toList := by
  obtain ⟨_, _, _, ⟨_, l, hl⟩, _⟩ := settle_effect s
  have h := settle_addrs s
  rw [hl, List.map_append] at h
  exact ⟨l, hl, List.append_cancel_left h⟩

/-! HLT (45 R1108, 21 R311): the halt cycle, held to its T4, and one clock. -/

/-- A cycle that has held the EU leaves the bus free and nothing pending. -/
theorem heldCycle_free (r : BusRequest) (v : Option Byte) (n : Nat) (s : State) :
    BusFree ((s.openCycle r).holdData v n) ∧ ((s.openCycle r).holdData v n).biu.cycle.pending = none := by
  have h : ((s.openCycle r).holdData v n).biu.cycle = _ := heldCycle_eq r v n s.settle.biu.cycle (settle_free s)
  rw [BusFree, h]
  exact ⟨.inr rfl, rfl⟩

/-- The clock after such a cycle shows a passive bus; the code fetch before it has ended. -/
theorem heldCycle_idles (r : BusRequest) (v : Option Byte) (n : Nat) (s : State) :
    let b := (((s.openCycle r).holdData v n).clock .idle none).biu
    b.fetching = none ∧ b.queue = s.settle.biu.queue ∧ b.pfp = s.biu.land.pfp ∧ b.cycle.busState = .passive ∧
      b.cycle.tstate = .ti := by
  obtain ⟨hfree, hpend⟩ := heldCycle_free r v n s
  obtain ⟨_, _, hq, hti, hpas⟩ := clock_of_free hfree hpend .idle none
  have hf := clock_fetching .idle none ((s.openCycle r).holdData v n) rfl
  have hp := clock_land_pfp .idle none ((s.openCycle r).holdData v n)
  have hheld : ((s.openCycle r).holdData v n).biu.land.pfp = s.biu.land.pfp := (BitVec.add_zero _).trans (settle_pfp s)
  rw [land_pfp, hf, hheld] at hp
  exact ⟨hf, hq, (BitVec.add_zero _).symm.trans hp, hpas, hti⟩

theorem heldCycle_effect (r : BusRequest) (v : Option Byte) (n : Nat) (s : State) :
    Effect s (((s.openCycle r).holdData v n).clock .idle none) s.cpu s.bus [] := by
  simpa using ((openCycle_effect r s).trans (holdData_effect v n _)).trans (clock_effect .idle none _)

/-- The state in which HLT requests its cycle: halted, fetching suspended, two free values drawn. -/
def haltRequested (s : State) : State := (suspendFetch (s.mapCpu fun c => { c with halted := true })).bumpDraws.bumpDraws

theorem halt_eq_heldCycle (s : State) : ∃ r, halt s = (((haltRequested s).openCycle r).holdData none 0).clock .idle none :=
  ⟨_, rfl⟩

theorem haltRequested_frame (s : State) : Frame s (haltRequested s) [] := .of_eq rfl rfl rfl rfl rfl rfl

/-! The other instructions (45 R1106, R1109, R1113). -/

theorem waitTest_done {s : State} (h : s.params.testAsserted = true) : waitTest s = s := if_pos h

theorem waitTest_jumped {s : State} (h : s.params.testAsserted = false) : Jumped s.cpu.ipStart s (waitTest s) := by
  rw [waitTest, if_neg (Bool.eq_false_iff.1 h)]
  exact jumpNear_transfer _ s

/-- A word read of a memory operand, low byte first (20 R220). -/
theorem readRM16_mem_adds (m : Mem) (s : State) :
    Adds (wordReads (accessOf (effSeg m s)) (s.seg (effSeg m s)) (effAddr m s) (readRM16 (.mem m) s).1) s
      (readRM16 (.mem m) s).2 :=
  readWordAt_adds _ _ _ s

/-- Settles O36: HLT is its bus cycle and one clock, WAIT a near jump to itself unless TEST is asserted, ESC the read of its
memory operand. -/
theorem haltWaitEscape : Obligations.HaltWaitEscape := by
  unfold Obligations.HaltWaitEscape
  refine fun s => ⟨rfl, ⟨halt s, rfl, ?_⟩, ⟨_, rfl, waitTest_done, waitTest_jumped⟩, fun c r => rfl, fun c m => ?_⟩
  · obtain ⟨r, hhalt⟩ := halt_eq_heldCycle s
    rw [hhalt]
    obtain ⟨hcpu, hbus, hdev, ⟨hsuspended, _⟩, hframe⟩ := heldCycle_effect r none 0 (haltRequested s)
    obtain ⟨hfetching, hqueue, hpfp, hpassive, hti⟩ := heldCycle_idles r none 0 (haltRequested s)
    obtain ⟨l, hl, haddrs⟩ := settle_queue (haltRequested s)
    exact ⟨hcpu, hbus, hdev, hsuspended, hfetching, ⟨l, hqueue.trans hl, haddrs⟩, hpfp, hpassive, hti,
      (haltRequested_frame s).trans hframe⟩
  · obtain ⟨hv, h⟩ := readRM16_effect (.mem m) s
    refine ⟨loByte (readRM16 (.mem m) s).1, hiByte (readRM16 (.mem m) s).1, _, rfl, ?_, h, readRM16_mem_adds m s⟩
    rw [mkWord_halves]
    exact hv

end Sys2Proof.Machine

/-! Exceptions and the register layout (60_exceptions, 70_reset_and_hazards): the boundary entries and their order, the return
that undoes an entry, and the register buffer as fourteen words. -/

namespace Sys2Proof.Machine

open Sys2Proof.Claims

/-! Boundary entries (60 R1230, R1231, R1233). -/

theorem entryDue_iff (s : State) : entryDue s = true ↔ s.cpu.inhibit = false ∧
    (s.cpu.nmiLatch = true ∨ intrDue s = true ∨ s.cpu.trapPending = true) := by
  rw [entryDue, Bool.and_eq_true, Bool.not_eq_true', Bool.or_eq_true, Bool.or_eq_true, or_assoc]

theorem cpuStep_of_running {s : State} (h : Running s) :
    cpuStep s = if entryDue s then boundaryEntry s else instructionStep s := by
  obtain ⟨hactive, hdecoding⟩ := h
  rw [cpuStep_of_active hactive, if_neg (Bool.eq_false_iff.1 hdecoding)]

/-- Settles O41: a due boundary is `boundaryEntry`, whose cases are NMI, the acknowledged or refused INTR, and the trap. -/
theorem boundaryEntries : Obligations.BoundaryEntries := by
  unfold Obligations.BoundaryEntries
  intro s hs
  rw [cpuStep_of_running hs, ← intrDue_iff]
  refine ⟨entryDue_iff s, fun hdue => if_neg (Bool.eq_false_iff.1 hdue), fun hdue => ?_⟩
  rw [if_pos hdue]
  exact ⟨fun hn => ⟨_, boundaryEntry_of_nmi hn, enter_enters 2 s.cpu.ip _⟩,
    fun hn hi => ⟨fun v p hp => boundaryEntry_of_intr hn hi hp, fun hp => boundaryEntry_of_refused hn hi hp⟩,
    fun hn hi => ⟨_, boundaryEntry_of_trap hn (eq_false_of_ne_true hi), enter_enters 1 s.cpu.ip _⟩⟩

/-! A word on the stack after words stored below it (20 R203, R220). -/

/-- Addresses of one segment base are different where their offsets are: no two differ by a multiple of 2^20. -/
theorem lin_inj {base a b : Word} (h : lin base a = lin base b) : a = b := by
  have e := congrArg BitVec.toNat h
  simp only [lin, BitVec.toNat_ofNat] at e
  apply BitVec.eq_of_toNat_eq
  omega

theorem storeWord_wf {b : Bus} (hb : Memory.wf b.mem = true) (base off v : Word) : Memory.wf (b.storeWord base off v).mem = true :=
  store_wf _ (store_wf b hb _ _) _ _

@[simp] theorem storeWord_writable (b : Bus) (base off v : Word) (a : LinAddr) :
    (b.storeWord base off v).writable a = b.writable a := by
  rw [Bus.storeWord, store_writable, store_writable]

/-- A store at other offsets leaves what the word reads as. -/
theorem readsWord_of_storeWord_apart {b : Bus} {base off x v w : Word} (h : ReadsWord (b.storeWord base x v) base off w)
    (h1 : off ≠ x) (h2 : off ≠ x + 1) (h3 : off + 1 ≠ x) : ReadsWord b base off w := by
  have h4 : off + 1 ≠ x + 1 := fun e => h1 (by bv_omega)
  have hbyte {o : Word} (hx : o ≠ x) (hx' : o ≠ x + 1) : (b.storeWord base x v).byte (lin base o) = b.byte (lin base o) := by
    rw [Bus.storeWord, store_byte_other _ _ _ _ (hx' ∘ lin_inj), store_byte_other _ _ _ _ (hx ∘ lin_inj)]
  obtain ⟨hlo, hhi⟩ := h
  rw [ReadsByte, storeWord_isDevice, hbyte h1 h2] at hlo
  rw [ReadsByte, storeWord_isDevice, hbyte h3 h4] at hhi
  exact ⟨hlo, hhi⟩

/-- The bus after three pushes. -/
def threeWords (b : Bus) (ss sp f cs ip : Word) : Bus :=
  ((b.storeWord ss (sp - 2) f).storeWord ss (sp - 4) cs).storeWord ss (sp - 6) ip

/-- Three words pushed into memory that takes stores read back, whatever the words are. -/
theorem threeWords_read {b : Bus} (hb : Memory.wf b.mem = true) {ss sp : Word}
    (hw : ∀ a ∈ wordCells ss (sp - 2) ++ wordCells ss (sp - 4) ++ wordCells ss (sp - 6), b.writable a = true)
    {f cs ip o sel w : Word} (ho : ReadsWord (threeWords b ss sp f cs ip) ss (sp - 6) o)
    (hsel : ReadsWord (threeWords b ss sp f cs ip) ss (sp - 4) sel)
    (hf : ReadsWord (threeWords b ss sp f cs ip) ss (sp - 2) w) : o = ip ∧ sel = cs ∧ w = f := by
  have hb1 := storeWord_wf hb ss (sp - 2) f
  have hb2 := storeWord_wf hb1 ss (sp - 4) cs
  simp only [List.mem_append] at hw
  refine ⟨readsWord_storeWord hb2 (fun a ha => ?_) ho, readsWord_storeWord hb1 (fun a ha => ?_)
    (readsWord_of_storeWord_apart hsel ?_ ?_ ?_), readsWord_storeWord hb (fun a ha => hw a (.inl (.inl ha)))
    (readsWord_of_storeWord_apart (readsWord_of_storeWord_apart hf ?_ ?_ ?_) ?_ ?_ ?_)⟩
  · simpa using hw a (.inr ha)
  · simpa using hw a (.inl (.inr ha))
  all_goals bv_omega

/-! The return undoes the entry (60 R1220, R1240). -/

/-- Settles O34: IRET pops the three words that `enter` has pushed, so SP, IP, CS and the flags are as they were. -/
theorem interruptRoundTrip : Obligations.InterruptRoundTrip := by
  unfold Obligations.InterruptRoundTrip
  intro n s hb hw
  obtain ⟨o, sel, _, _, hcpu, hbus, _⟩ := enter_enters n s.cpu.ip s
  obtain ⟨o', sel', f, ho, hsel, hf, kcpu, _, _, ⟨hqueue, _, hpfp, _⟩, _⟩ := interruptReturn_transfer (enter n s.cpu.ip s)
  have hss : (enter n s.cpu.ip s).seg .ss = s.seg .ss := by rw [State.seg, hcpu]; rfl
  have hsp : (enter n s.cpu.ip s).reg16 .sp = s.reg16 .sp - 6 := by rw [State.reg16, hcpu]; rfl
  have e4 : s.reg16 .sp - 6 + 2 = s.reg16 .sp - 4 := by bv_omega
  have e2 : s.reg16 .sp - 6 + 4 = s.reg16 .sp - 2 := by bv_omega
  have e0 : s.reg16 .sp - 6 + 6 = s.reg16 .sp := by bv_omega
  rw [hss, hsp, hbus] at ho hsel hf
  rw [e4] at hsel
  rw [e2] at hf
  obtain ⟨rfl, rfl, rfl⟩ := threeWords_read hb hw ho hsel hf
  rw [hsp, e0, hcpu, flagsOfWord_image] at kcpu
  have hip : (interruptReturn (enter n s.cpu.ip s)).cpu.ip = s.cpu.ip := by rw [kcpu, putIp_ip]
  refine ⟨_, _, rfl, rfl, ?_, ?_, ?_, hip, hqueue, hpfp.trans hip⟩
  · rw [kcpu]
    exact RegFile.set_get s.cpu.regs .sp
  · rw [kcpu]
    rfl
  · rw [kcpu, putIp_flags, putSeg_flags, putFlags_flags]

/-! The register buffer (70 R1530). -/

/-- The fourteen words of the layout, in order. -/
def layoutWords (s : State) : List Word :=
  [s.reg16 .ax, s.reg16 .bx, s.reg16 .cx, s.reg16 .dx, s.seg .ss, s.reg16 .sp, s.cpu.flags.image, s.cpu.ip, s.seg .cs,
    s.seg .ds, s.seg .es, s.reg16 .bp, s.reg16 .si, s.reg16 .di]

theorem storeReg_of_written {s : State} (h : ∀ r, s.cpu.written.get r = true) (r : Reg16) :
    storeReg r s = (wordBytes (s.reg16 r), s) := if_pos (h r)

theorem storeRegList_of_written {s : State} (h : ∀ r, s.cpu.written.get r = true) (rs : List Reg16) :
    storeRegList rs s = (rs.flatMap fun r => wordBytes (s.reg16 r), s) := by
  induction rs with
  | nil => rfl
  | cons r rs ih => rw [storeRegList, storeReg_of_written h, ih, List.flatMap_cons]

theorem storeRegs_of_written {s : State} (h : ∀ r, s.cpu.written.get r = true) :
    (storeRegs s).1 = (layoutWords s).flatMap wordBytes := by
  simp only [storeRegs, storeRegList_of_written h]
  rfl

/-- Word k of a buffer of words laid out low byte first. -/
theorem bufWord_flatMap_wordBytes (ws : List Word) (k : Nat) : bufWord (ws.flatMap wordBytes) k = ws.getD k 0 := by
  induction ws generalizing k with
  | nil => exact (by decide : mkWord 0 0 = 0)
  | cons w ws ih =>
    cases k with
    | zero => exact mkWord_halves w
    | succ k => exact ih k

theorem written_of_all {f : RegFile Bool} (h : ∀ r, f.get r = true) : f =
    { ax := true, bx := true, cx := true, dx := true, sp := true, bp := true, si := true, di := true } := by
  obtain ⟨ax, cx, dx, bx, sp, bp, si, di⟩ := f
  obtain ⟨rfl, rfl, rfl, rfl, rfl, rfl, rfl, rfl⟩ : ax = true ∧ cx = true ∧ dx = true ∧ bx = true ∧ sp = true ∧ bp = true ∧
    si = true ∧ di = true := ⟨h .ax, h .cx, h .dx, h .bx, h .sp, h .bp, h .si, h .di⟩
  rfl

/-- Settles O60: the buffer is the fourteen words low byte first, and word k of it is the k-th of them. -/
theorem registerLayout : Obligations.RegisterLayout := by
  unfold Obligations.RegisterLayout
  intro s hs
  rw [storeRegs_of_written hs]
  have hword := bufWord_flatMap_wordBytes (layoutWords s)
  refine ⟨rfl, ?_, List.map_congr_left fun k _ => hword k⟩
  simp only [loadRegs, hword, ← written_of_all hs]
  simp only [layoutWords, List.getD_cons_zero, List.getD_cons_succ, flagsOfWord_image]
  rfl

end Sys2Proof.Machine

/-! DMA (61_platform_devices): a channel's registers over its transfers, one transfer's effect, the choice among channels, and the
bursts and turns of the service loop. -/

namespace Sys2Proof.Machine

open Sys2Proof.Claims

/-! A channel's registers over its transfers (61 R1410, R1411). -/

/-- The channel k transfers on, terminal count not reached. -/
def DmaChannel.moved (x : DmaChannel) (k : Nat) : DmaChannel :=
  { x with
    curAddr := if x.decrement then x.curAddr - BitVec.ofNat 16 k else x.curAddr + BitVec.ofNat 16 k
    curCount := x.curCount - BitVec.ofNat 16 k }

theorem moved_curCount (x : DmaChannel) (k : Nat) : (x.moved k).curCount = x.curCount - BitVec.ofNat 16 k := rfl

theorem advance_of_count {x : DmaChannel} (h : x.curCount ≠ 0) : x.advance = x.moved 1 :=
  if_neg fun e => h (by bv_omega)

/-- The transfer that reaches terminal count: TC set, the request cleared, and a reload or the mask. -/
theorem advance_of_last {x : DmaChannel} (h : x.curCount = 0) : x.advance =
    if x.autoinit then { x with tc := true, req := false, curAddr := x.baseAddr, curCount := x.baseCount }
    else { x.moved 1 with tc := true, req := false, mask := true } :=
  if_pos (by bv_omega)

theorem advance_req {x : DmaChannel} (h : x.req = false) : x.advance.req = false := by
  by_cases h0 : x.curCount = 0
  · rw [advance_of_last h0]
    split <;> rfl
  · rw [advance_of_count h0]
    exact h

theorem moved_moved_one (x : DmaChannel) (k : Nat) : (x.moved k).moved 1 = x.moved (k + 1) := by
  have hd : (x.moved k).decrement = x.decrement := rfl
  rw [DmaChannel.moved, hd]
  cases hx : x.decrement <;> simp [DmaChannel.moved, hx, BitVec.add_assoc, BitVec.sub_sub, BitVec.ofNat_add]

theorem dmaAdvances_succ (k : Nat) (x : DmaChannel) : dmaAdvances (k + 1) x = (dmaAdvances k x).advance := by
  induction k generalizing x with
  | zero => rfl
  | succ k ih => exact ih x.advance

theorem moved_zero (x : DmaChannel) : x.moved 0 = x := by
  simp [DmaChannel.moved]

theorem dmaAdvances_eq_moved {x : DmaChannel} {k : Nat} (h : k ≤ x.curCount.toNat) : dmaAdvances k x = x.moved k := by
  induction k with
  | zero => exact (moved_zero x).symm
  | succ k ih =>
    have hne : (x.moved k).curCount ≠ 0 := by rw [moved_curCount]; bv_omega
    rw [dmaAdvances_succ, ih (by omega), advance_of_count hne, moved_moved_one]

theorem moved_last_curCount (x : DmaChannel) : (x.moved x.curCount.toNat).curCount = 0 := by
  rw [moved_curCount]; simp

/-- Settles O58: up to the count the channel only moves, and the transfer after it is the last. -/
theorem dmaTerminalCount : Obligations.DmaTerminalCount := by
  unfold Obligations.DmaTerminalCount
  intro x k hk
  rw [dmaAdvances_eq_moved hk]
  refine ⟨rfl, rfl, rfl, rfl, ?_⟩
  rintro rfl
  have hauto : (x.moved x.curCount.toNat).autoinit = x.autoinit := rfl
  rw [dmaAdvances_succ, dmaAdvances_eq_moved hk, advance_of_last (moved_last_curCount x), hauto]
  cases x.autoinit with
  | false => exact ⟨rfl, rfl, nofun, fun _ => rfl⟩
  | true => exact ⟨rfl, rfl, fun _ => ⟨rfl, rfl, rfl⟩, nofun⟩

/-! One transfer (61 R1408 to R1410, R1412). -/

theorem Dma.get_set_same (d : Dma) (c : BitVec 2) (x : DmaChannel) : (d.set c x).get c = x := by
  match c with
  | 0 | 1 | 2 | 3 => rfl

theorem Dma.get_set_other (d : Dma) {c q : BitVec 2} (x : DmaChannel) (h : q ≠ c) : (d.set c x).get q = d.get q := by
  match c, q with
  | 0, 0 | 1, 1 | 2, 2 | 3, 3 => exact absurd rfl h
  | 0, 1 | 0, 2 | 0, 3 | 1, 0 | 1, 2 | 1, 3 | 2, 0 | 2, 1 | 2, 3 | 3, 0 | 3, 1 | 3, 2 => rfl

@[simp] theorem Dma.set_command (d : Dma) (c : BitVec 2) (x : DmaChannel) : (d.set c x).command = d.command := by
  unfold Dma.set
  split <;> rfl

/-- The environment's DREQ lines and samples stay at an oracle read: its answers are a list of their own. -/
theorem oracleRead_dreq (s : State) : (oracleRead s).2.env.dreq = s.env.dreq ∧
    (oracleRead s).2.env.dreqSamples = s.env.dreqSamples := by
  unfold oracleRead
  split <;> exact ⟨rfl, rfl⟩

theorem dispatchRead_dreq (a : LinAddr) (s : State) : (dispatchRead a s).2.env.dreq = s.env.dreq ∧
    (dispatchRead a s).2.env.dreqSamples = s.env.dreqSamples := by
  unfold dispatchRead
  split
  · exact oracleRead_dreq s
  · exact ⟨rfl, rfl⟩

/-- What a transfer's memory access leaves alone. -/
theorem dmaAccess_fields (c : BitVec 2) (x : DmaChannel) (s : State) : (dmaAccess c x s).cpu = s.cpu ∧
    (dmaAccess c x s).biu = s.biu ∧ (dmaAccess c x s).dev = s.dev ∧ (dmaAccess c x s).env.dreq = s.env.dreq ∧
    (dmaAccess c x s).env.dreqSamples = s.env.dreqSamples := by
  unfold dmaAccess
  cases x.xfer with
  | verify => exact ⟨rfl, rfl, rfl, rfl, rfl⟩
  | write => exact ⟨oracleRead_cpu s, oracleRead_biu s, oracleRead_dev s, oracleRead_dreq s⟩
  | read =>
    dsimp only
    split
    · exact ⟨rfl, rfl, rfl, rfl, rfl⟩
    · exact ⟨dispatchRead_cpu _ s, dispatchRead_biu _ s, dispatchRead_dev _ s, dispatchRead_dreq _ s⟩
  | illegal => exact ⟨rfl, rfl, rfl, rfl, rfl⟩

theorem dmaTransfer_dev (c : BitVec 2) (s : State) : (dmaTransfer c s).dev =
    { s.dev with
      dma := s.dev.dma.set c (s.dev.dma.get c).advance
      refreshReq := s.dev.refreshReq && c != 0 } := by
  obtain ⟨_, _, hdev, _⟩ := dmaAccess_fields c (s.dev.dma.get c) s
  have hreq : (if c = 0 then false else s.dev.refreshReq) = (s.dev.refreshReq && c != 0) := by
    by_cases h : c = 0
    · rw [if_pos h, bne_eq_false_iff_eq.2 h, Bool.and_false]
    · rw [if_neg h, bne_iff_ne.2 h, Bool.and_true]
  simp only [dmaTransfer, mapDev_dev, hdev, hreq]

theorem dmaTransfer_dreq (c : BitVec 2) (s : State) : (dmaTransfer c s).env.dreq = s.env.dreq ∧
    (dmaTransfer c s).env.dreqSamples = s.env.dreqSamples := by
  obtain ⟨_, _, _, h⟩ := dmaAccess_fields c (s.dev.dma.get c) s
  exact h

theorem dmaTransfer_get_same (c : BitVec 2) (s : State) :
    (dmaTransfer c s).dev.dma.get c = (s.dev.dma.get c).advance := by
  rw [dmaTransfer_dev, Dma.get_set_same]

theorem dmaTransfer_get_other {c q : BitVec 2} (h : q ≠ c) (s : State) :
    (dmaTransfer c s).dev.dma.get q = s.dev.dma.get q := by
  rw [dmaTransfer_dev, Dma.get_set_other _ _ h]

theorem dmaTransfer_write {c : BitVec 2} {s : State} (h : (s.dev.dma.get c).xfer = .write) :
    ∃ v, (dmaTransfer c s).bus = s.bus.store (s.dev.dma.get c).addr v ∧
      (dmaTransfer c s).history = .dmaWrite c.toNat (s.dev.dma.get c).addr v :: s.history := by
  simp only [dmaTransfer, dmaAccess, h]
  exact ⟨(oracleRead s).1.value, by simp, by simp⟩

theorem dmaTransfer_read {c : BitVec 2} {s : State} (h : (s.dev.dma.get c).xfer = .read) (hc : c ≠ 0) :
    ∃ v, (dmaTransfer c s).bus = s.bus ∧
      (dmaTransfer c s).history = .dmaRead c.toNat (s.dev.dma.get c).addr v :: s.history ∧
      (s.bus.isDevice (s.dev.dma.get c).addr = false → v = s.bus.byte (s.dev.dma.get c).addr) := by
  simp only [dmaTransfer, dmaAccess, h, if_neg hc]
  exact ⟨(dispatchRead (s.dev.dma.get c).addr s).1.value, by simp, by simp, dispatchRead_value _ s⟩

/-- A verify, and the read of a refresh, access nothing. -/
theorem dmaAccess_none {c : BitVec 2} {x : DmaChannel} (h : x.xfer = .verify ∨ (x.xfer = .read ∧ c = 0)) (s : State) :
    dmaAccess c x s = s := by
  rcases h with h | ⟨h, hc⟩
  · simp only [dmaAccess, h]
  · simp only [dmaAccess, h, if_pos hc]

/-! The choice among the channels (61 R1413, R1414). -/

/-- In a list that rises in a rank and holds everything, what is found is what no smaller rank gives. -/
theorem find?_eq_some_iff_of_rank {n : Nat} {α : Type} {l : List α} (rank : α → BitVec n)
    (hrise : l.Pairwise fun a b => rank a < rank b) (hall : ∀ a, a ∈ l) (p : α → Bool) (a : α) :
    l.find? p = some a ↔ p a = true ∧ ∀ b, rank b < rank a → p b = false := by
  rw [List.find?_eq_some_iff_append]
  refine and_congr_right fun _ => ⟨?_, fun h => ?_⟩
  · rintro ⟨before, after, rfl, hbefore⟩ b hb
    obtain ⟨_, hafter, _⟩ := List.pairwise_append.1 hrise
    rcases List.mem_append.1 (hall b) with hmem | hmem
    · simpa using hbefore b hmem
    · rcases List.mem_cons.1 hmem with rfl | hmem
      · exact absurd hb (BitVec.lt_irrefl _)
      · exact absurd hb (BitVec.lt_asymm (List.rel_of_pairwise_cons hafter hmem))
  · obtain ⟨before, after, rfl⟩ := List.append_of_mem (hall a)
    obtain ⟨_, _, hrank⟩ := List.pairwise_append.1 hrise
    exact ⟨before, after, rfl, fun b hb => by simpa using h b (hrank b hb a (by simp))⟩

theorem dreqOf_eq_dreqActive (s : State) (q : BitVec 2) : dreqOf s q = dreqActive s q := rfl

theorem dmaRequest_iff_asks (s : State) (q : BitVec 2) : dmaRequest s q = true ↔ Asks s q := by
  simp [dmaRequest, Asks, dreqOf_eq_dreqActive]

theorem dmaRefused_iff (s : State) (c : BitVec 2) : dmaRefused s c = true ↔ RefusesDma s c := by
  simp [dmaRefused, RefusesDma, or_assoc]

/-- The rank in which `Before` compares. -/
def dmaRank (d : Dma) (q : BitVec 2) : BitVec 2 := if d.command.getLsbD 4 then q - (d.rotLast + 1) else q

theorem before_iff_rank (d : Dma) (q c : BitVec 2) : Before d q c ↔ dmaRank d q < dmaRank d c := by
  unfold Before dmaRank
  split <;> exact Iff.rfl

theorem order_rises (d : Dma) : (d.order.Pairwise fun a b => dmaRank d a < dmaRank d b) ∧ ∀ q, q ∈ d.order := by
  unfold Dma.order dmaRank
  split
  · generalize d.rotLast = r
    revert r
    decide
  · decide

theorem dmaChoice_eq_some_iff (s : State) (done : List (BitVec 2)) (c : BitVec 2) :
    dmaChoice s done = some c ↔ Chosen s done c := by
  obtain ⟨hrise, hall⟩ := order_rises s.dev.dma
  rw [dmaChoice, find?_eq_some_iff_of_rank (dmaRank s.dev.dma) hrise hall]
  simp only [Chosen, before_iff_rank, ← dmaRequest_iff_asks, ← List.contains_iff_mem, Bool.and_eq_true, Bool.and_eq_false_iff,
    Bool.not_eq_true', Bool.not_eq_false', Bool.not_eq_true, imp_iff_not_or, and_assoc]

theorem dmaChoice_eq_none_iff (s : State) (done : List (BitVec 2)) :
    dmaChoice s done = none ↔ ∀ c, Asks s c → c ∈ done := by
  obtain ⟨_, hall⟩ := order_rises s.dev.dma
  simp [dmaChoice, List.find?_eq_none, hall, ← dmaRequest_iff_asks]

/-! Bursts (61 R1414). -/

theorem sampleDreq_of_nil {s : State} (h : s.env.dreqSamples = []) : sampleDreq s = s := by
  rw [sampleDreq, h]

theorem sampleDreq_of_cons {s : State} {d : BitVec 4} {ds : List (BitVec 4)} (h : s.env.dreqSamples = d :: ds) :
    sampleDreq s = s.mapEnv fun e => { e with dreq := d, dreqSamples := ds } := by
  rw [sampleDreq, h]

theorem sampleDreq_dev (s : State) : (sampleDreq s).dev = s.dev := by
  unfold sampleDreq
  split <;> rfl

theorem transfers_get (c : BitVec 2) (k : Nat) (s : State) :
    (transfers c k s).dev.dma.get c = dmaAdvances k (s.dev.dma.get c) := by
  induction k with
  | zero => rfl
  | succ k ih => rw [transfers, dmaTransfer_get_same, ih, dmaAdvances_succ]

theorem sampledTransfers_get (c : BitVec 2) (k : Nat) (s : State) :
    (sampledTransfers c k s).dev.dma.get c = dmaAdvances k (s.dev.dma.get c) := by
  induction k with
  | zero => rfl
  | succ k ih => rw [sampledTransfers, sampleDreq_dev, dmaTransfer_get_same, ih, dmaAdvances_succ]

theorem lastTransfer_moved (x : DmaChannel) {k : Nat} (h : k ≤ x.curCount.toNat) :
    (x.moved k).lastTransfer = decide (k = x.curCount.toNat) := by
  rw [DmaChannel.lastTransfer, moved_curCount, Bool.eq_iff_iff, beq_iff_eq, decide_eq_true_iff]
  constructor <;> intro e
  · bv_omega
  · rw [e]; simp

theorem dmaBurst_last {c : BitVec 2} {s : State} (h : (s.dev.dma.get c).lastTransfer = true) (n : Nat) :
    dmaBurst (n + 1) c s = (true, dmaTransfer c s) := by
  simp only [dmaBurst, h, if_true]

section

variable {c : BitVec 2} {s : State} (hl : (s.dev.dma.get c).lastTransfer = false)

include hl

theorem dmaBurst_single (h : (s.dev.dma.get c).select = .single) (n : Nat) :
    dmaBurst (n + 1) c s = (false, dmaTransfer c s) := by
  simp only [dmaBurst, hl, h, Bool.false_eq_true, if_false]

theorem dmaBurst_block (h : (s.dev.dma.get c).select = .block) (n : Nat) :
    dmaBurst (n + 1) c s = dmaBurst n c (dmaTransfer c s) := by
  simp only [dmaBurst, hl, h, Bool.false_eq_true, if_false]

theorem dmaBurst_demand (h : (s.dev.dma.get c).select = .demand) (n : Nat) : dmaBurst (n + 1) c s =
    if dreqOf (sampleDreq (dmaTransfer c s)) c then dmaBurst n c (sampleDreq (dmaTransfer c s))
    else (false, sampleDreq (dmaTransfer c s)) := by
  simp only [dmaBurst, hl, h, Bool.false_eq_true, if_false]
  rfl

end

section

variable {c : BitVec 2} {s : State} {n k : Nat} (hn : k < n) (hk : k ≤ (s.dev.dma.get c).curCount.toNat)

include hn hk

/-- A block burst with k transfers made. -/
theorem dmaBurst_block_transfers (h : (s.dev.dma.get c).select = .block) :
    dmaBurst n c s = dmaBurst (n - k) c (transfers c k s) := by
  induction k with
  | zero => rfl
  | succ k ih =>
    have hget := (transfers_get c k s).trans (dmaAdvances_eq_moved (by omega))
    have hl : ((transfers c k s).dev.dma.get c).lastTransfer = false := by
      rw [hget, lastTransfer_moved _ (by omega), decide_eq_false_iff_not]
      omega
    have hfuel : n - k = n - (k + 1) + 1 := by omega
    rw [ih (by omega) (by omega), hfuel, dmaBurst_block hl (by rw [hget]; exact h), transfers]

/-- A demand burst with k transfers made, DREQ sampled active after each. -/
theorem dmaBurst_demand_transfers (h : (s.dev.dma.get c).select = .demand)
    (hdreq : ∀ j, 1 ≤ j → j ≤ k → dreqOf (sampledTransfers c j s) c = true) :
    dmaBurst n c s = dmaBurst (n - k) c (sampledTransfers c k s) := by
  induction k with
  | zero => rfl
  | succ k ih =>
    have hget := (sampledTransfers_get c k s).trans (dmaAdvances_eq_moved (by omega))
    have hl : ((sampledTransfers c k s).dev.dma.get c).lastTransfer = false := by
      rw [hget, lastTransfer_moved _ (by omega), decide_eq_false_iff_not]
      omega
    have hfuel : n - k = n - (k + 1) + 1 := by omega
    have hd : dreqOf (sampleDreq (dmaTransfer c (sampledTransfers c k s))) c = true := hdreq (k + 1) (by omega) le_rfl
    rw [ih (by omega) (by omega) fun j h1 h2 => hdreq j h1 (by omega), hfuel, dmaBurst_demand hl (by rw [hget]; exact h),
      if_pos hd, sampledTransfers]

end

theorem curCount_lt (x : DmaChannel) : x.curCount.toNat < 65536 := x.curCount.isLt

/-- A block burst makes all N + 1 transfers and reaches terminal count. -/
theorem dmaBurst_of_block {c : BitVec 2} {s : State} (h : (s.dev.dma.get c).select = .block) :
    dmaBurst 65536 c s = (true, transfers c ((s.dev.dma.get c).curCount.toNat + 1) s) := by
  have hlt := curCount_lt (s.dev.dma.get c)
  have hget := (transfers_get c (s.dev.dma.get c).curCount.toNat s).trans (dmaAdvances_eq_moved le_rfl)
  rw [dmaBurst_block_transfers hlt le_rfl h, ← Nat.sub_add_cancel (Nat.sub_pos_of_lt hlt), dmaBurst_last, transfers]
  rw [hget, lastTransfer_moved _ le_rfl, decide_eq_true rfl]

theorem dmaBurst_of_single {c : BitVec 2} {s : State} (h : (s.dev.dma.get c).select = .single) :
    dmaBurst 65536 c s = (decide ((s.dev.dma.get c).curCount.toNat = 0), dmaTransfer c s) := by
  have hlast := lastTransfer_moved (s.dev.dma.get c) (Nat.zero_le _)
  rw [moved_zero] at hlast
  by_cases h0 : (s.dev.dma.get c).curCount.toNat = 0
  · rw [decide_eq_true h0, dmaBurst_last]
    rw [hlast, decide_eq_true h0.symm]
  · rw [decide_eq_false h0, dmaBurst_single _ h]
    rw [hlast, decide_eq_false (Ne.symm h0)]

section

variable {c : BitVec 2} {s : State} {k : Nat} (h : (s.dev.dma.get c).select = .demand)
  (hdreq : ∀ j, 1 ≤ j → j ≤ k → dreqOf (sampledTransfers c j s) c = true)

include h hdreq

/-- A demand burst that the end of the count ends. -/
theorem dmaBurst_of_demand_last (hk : k = (s.dev.dma.get c).curCount.toNat) :
    dmaBurst 65536 c s = (true, dmaTransfer c (sampledTransfers c k s)) := by
  have hlt := curCount_lt (s.dev.dma.get c)
  rw [← hk] at hlt
  have hget := (sampledTransfers_get c k s).trans (dmaAdvances_eq_moved hk.le)
  rw [dmaBurst_demand_transfers hlt hk.le h hdreq, ← Nat.sub_add_cancel (Nat.sub_pos_of_lt hlt), dmaBurst_last]
  rw [hget, lastTransfer_moved _ hk.le, decide_eq_true hk]

/-- A demand burst that an inactive DREQ ends. -/
theorem dmaBurst_of_demand_dropped (hk : k < (s.dev.dma.get c).curCount.toNat)
    (hlow : dreqOf (sampledTransfers c (k + 1) s) c = false) : dmaBurst 65536 c s = (false, sampledTransfers c (k + 1) s) := by
  have hlt := hk.trans (curCount_lt (s.dev.dma.get c))
  have hget := (sampledTransfers_get c k s).trans (dmaAdvances_eq_moved hk.le)
  rw [sampledTransfers] at hlow ⊢
  rw [dmaBurst_demand_transfers hlt hk.le h hdreq, ← Nat.sub_add_cancel (Nat.sub_pos_of_lt hlt), dmaBurst_demand _ (by rw [hget]; exact h),
    hlow]
  · rfl
  · rw [hget, lastTransfer_moved _ hk.le, decide_eq_false (Nat.ne_of_lt hk)]

end

/-! Turns of the service loop, and the step (61 R1409, R1414). -/

theorem dmaStep_of_disabled {s : State} (h : s.dev.dma.command.getLsbD 2 = true) : dmaStep s = s := if_pos h

theorem dmaStep_of_enabled {s : State} (h : s.dev.dma.command.getLsbD 2 = false) :
    dmaStep s = dmaLoop (4 * 65536 + 1) [] s := if_neg (Bool.eq_false_iff.1 h)

theorem dmaLoop_idle {done : List (BitVec 2)} {s : State} (h : ∀ c, Asks (sampleDreq s) c → c ∈ done) (n : Nat) :
    dmaLoop (n + 1) done s = sampleDreq s := by
  simp only [dmaLoop, (dmaChoice_eq_none_iff _ _).2 h]

section

variable {done : List (BitVec 2)} {s : State} {c : BitVec 2} (hc : Chosen (sampleDreq s) done c)

include hc

theorem dmaLoop_refuses (h : RefusesDma (sampleDreq s) c) (n : Nat) : dmaLoop (n + 1) done s =
    { sampleDreq s with marks := { (sampleDreq s).marks with refusal := some (.dmaForm c.toNat) } } := by
  simp only [dmaLoop, (dmaChoice_eq_some_iff _ _ _).2 hc, if_pos ((dmaRefused_iff _ _).2 h)]

/-- A turn that serves a channel is its burst. -/
theorem dmaLoop_serves (h : ¬ RefusesDma (sampleDreq s) c) {b : Bool} {t : State}
    (hburst : dmaBurst 65536 c (sampleDreq s) = (b, t)) (n : Nat) :
    dmaLoop (n + 1) done s = dmaLoop n (if b then c :: done else done) (servedLast c t) := by
  simp only [dmaLoop, (dmaChoice_eq_some_iff _ _ _).2 hc, if_neg (mt (dmaRefused_iff _ _).1 h), hburst]
  rfl

end

/-- A channel that alone asks is the one to serve. -/
theorem chosen_of_lone {s : State} {c : BitVec 2} (h : ∀ q, Asks s q ↔ q = c) : Chosen s [] c := by
  refine ⟨(h c).2 rfl, List.not_mem_nil, fun q hq hasks => ?_⟩
  obtain rfl := (h q).1 hasks
  exact absurd ((before_iff_rank _ _ _).1 hq) (BitVec.lt_irrefl _)

theorem asks_servedLast (s : State) (c q : BitVec 2) : Asks (servedLast c s) q ↔ Asks s q := Iff.rfl

/-- A transfer leaves the requests of the other channels. -/
theorem asks_dmaTransfer_other {c q : BitVec 2} (h : q ≠ c) (s : State) : Asks (dmaTransfer c s) q ↔ Asks s q := by
  obtain ⟨hdreq, _⟩ := dmaTransfer_dreq c s
  have hline : dreqOf (dmaTransfer c s) q = dreqOf s q := by
    rw [dreqOf, dreqOf, hdreq, dmaTransfer_dev]
    by_cases hq : q = 0
    · have hc : (c != 0) = true := bne_iff_ne.2 fun e => h (hq.trans e.symm)
      simp only [if_pos hq, hc, Bool.and_true, Dma.set_command]
    · simp only [if_neg hq, Dma.set_command]
  rw [Asks, Asks, hline, dmaTransfer_get_other h]

theorem asks_transfers_other {c q : BitVec 2} (h : q ≠ c) (k : Nat) (s : State) : Asks (transfers c k s) q ↔ Asks s q := by
  induction k with
  | zero => exact Iff.rfl
  | succ k ih => exact (asks_dmaTransfer_other h _).trans ih

theorem transfers_dreqSamples (c : BitVec 2) (k : Nat) (s : State) :
    (transfers c k s).env.dreqSamples = s.env.dreqSamples := by
  induction k with
  | zero => rfl
  | succ k ih => exact (dmaTransfer_dreq c _).2.trans ih

/-- With nothing sampled anew and one channel asking, the step is that channel's burst where nothing asks after it. -/
theorem dmaStep_of_lone {s : State} {c : BitVec 2} (henabled : s.dev.dma.command.getLsbD 2 = false)
    (hsamples : s.env.dreqSamples = []) (hlone : ∀ q, Asks s q ↔ q = c) (hform : ¬ RefusesDma s c) {b : Bool} {t : State}
    (hburst : dmaBurst 65536 c s = (b, t)) (htsamples : t.env.dreqSamples = [])
    (hquiet : ∀ q, Asks t q → q ∈ if b then [c] else []) : dmaStep s = servedLast c t := by
  have hsame := sampleDreq_of_nil hsamples
  have hsame' : sampleDreq (servedLast c t) = servedLast c t := sampleDreq_of_nil htsamples
  rw [dmaStep_of_enabled henabled, dmaLoop_serves (c := c) (b := b) (t := t) (by rw [hsame]; exact chosen_of_lone hlone)
    (by rw [hsame]; exact hform) (by rw [hsame]; exact hburst)]
  refine (dmaLoop_idle (n := 262143) ?_).trans hsame'
  rw [hsame']
  exact hquiet

/-- A lone channel in block mode makes its N + 1 transfers and the step ends. -/
theorem dmaStep_of_lone_block {s : State} {c : BitVec 2} (henabled : s.dev.dma.command.getLsbD 2 = false)
    (hsamples : s.env.dreqSamples = []) (hlone : ∀ q, Asks s q ↔ q = c) (hform : ¬ RefusesDma s c)
    (hblock : (s.dev.dma.get c).select = .block) :
    dmaStep s = servedLast c (transfers c ((s.dev.dma.get c).curCount.toNat + 1) s) := by
  refine dmaStep_of_lone henabled hsamples hlone hform (dmaBurst_of_block hblock)
    ((transfers_dreqSamples _ _ _).trans hsamples) fun q hq => List.mem_singleton.2 ?_
  by_contra hne
  exact hne ((hlone q).1 ((asks_transfers_other hne _ s).1 hq))

/-- A refresh request alone is one transfer of channel 0, which accesses nothing. -/
theorem dmaStep_of_refresh {s : State} (hsamples : s.env.dreqSamples = []) (hcommand : s.dev.dma.command = 0)
    (hrefresh : s.dev.refreshReq = true) (hmask : s.dev.dma.ch0.mask = false) (hreq : s.dev.dma.ch0.req = false)
    (hsingle : s.dev.dma.ch0.select = .single) (hread : s.dev.dma.ch0.xfer = .read)
    (hothers : ∀ c, c ≠ 0 → dmaRequest s c = false) : dmaStep s = s.mapDev fun d =>
      { d with refreshReq := false, dma := { d.dma with ch0 := d.dma.ch0.advance, rotLast := 0 } } := by
  have hline : dreqOf s 0 = true := by simp [dreqOf, hrefresh, hcommand]
  have hlone (q : BitVec 2) : Asks s q ↔ q = 0 := by
    refine ⟨fun h => ?_, fun h => h ▸ .inl ⟨hline, hmask⟩⟩
    by_contra hne
    exact absurd ((dmaRequest_iff_asks s q).2 h) (Bool.eq_false_iff.1 (hothers q hne))
  have hform : ¬ RefusesDma s 0 := by
    rintro (⟨h, _⟩ | h | h | ⟨h, _⟩)
    · rw [hcommand] at h
      exact absurd h (by decide)
    · exact absurd (hsingle.symm.trans h) (by decide)
    · exact absurd (hread.symm.trans h) (by decide)
    · exact absurd (hreq.symm.trans h) (by decide)
  have htransfer : dmaTransfer 0 s = s.mapDev fun d =>
      { d with refreshReq := false, dma := d.dma.set 0 d.dma.ch0.advance } := by
    have haccess : dmaAccess 0 (s.dev.dma.get 0) s = s := dmaAccess_none (.inr ⟨hread, rfl⟩) s
    rw [dmaTransfer, haccess]
    rfl
  have hquiet (q : BitVec 2) : ¬ Asks (dmaTransfer 0 s) q := by
    intro h
    by_cases hq : q = 0
    · have hlow : dreqOf (dmaTransfer 0 s) 0 = false := by
        rw [htransfer]
        exact congrArg (fun b : Byte => Bool.xor false (b.getLsbD 6)) hcommand
      rw [hq, Asks, hlow, dmaTransfer_get_same] at h
      rcases h with ⟨h, _⟩ | h
      · exact absurd h Bool.false_ne_true
      · exact absurd ((advance_req hreq).symm.trans h) Bool.false_ne_true
    · exact hq ((hlone q).1 ((asks_dmaTransfer_other hq s).1 h))
  rw [dmaStep_of_lone (by rw [hcommand]; rfl) hsamples hlone hform (dmaBurst_of_single hsingle)
    ((dmaTransfer_dreq 0 s).2.trans hsamples) fun q hq => absurd hq (hquiet q), htransfer]
  rfl

theorem step_of_refusal {s : State} {r : Refusal} (hf : s.marks.fault = none) (hr : s.marks.refusal = some r) :
    step s = .refused r := by
  simp only [step, cpuStep, hf, hr]

/-- Settles O59: a transfer is its access and the channel's advance; a turn is the choice by rank and the chosen channel's burst,
which is its transfers up to terminal count or up to a dropped DREQ. -/
theorem dmaTransfers : Obligations.DmaTransfers := by
  unfold Obligations.DmaTransfers
  refine ⟨fun s c => ?_, fun s => ⟨dmaStep_of_disabled, fun hsamples hnone => ?_, dmaStep_of_refresh⟩,
    fun s => dmaStep_of_enabled, fun n done s => ⟨sampleDreq_of_nil, fun d ds => sampleDreq_of_cons, (dmaLoop_idle · n),
      fun c hc => ⟨(dmaLoop_refuses hc · n), fun hform => ⟨fun h => ?_, fun h => ?_, fun h k hk hdreq => ⟨fun e => ?_, fun hlt hlow => ?_⟩⟩⟩⟩,
    fun s r => step_of_refusal, fun s c => dmaStep_of_lone_block⟩
  · obtain ⟨hcpu, hbiu, _⟩ := dmaAccess_fields c (s.dev.dma.get c) s
    refine ⟨hcpu, hbiu, dmaTransfer_dev c s, dmaTransfer_write, dmaTransfer_read, fun h => ?_⟩
    rw [dmaTransfer, dmaAccess_none h]
    exact ⟨rfl, rfl⟩
  · by_cases h : s.dev.dma.command.getLsbD 2 = true
    · exact dmaStep_of_disabled h
    · have hsame := sampleDreq_of_nil hsamples
      rw [dmaStep_of_enabled (eq_false_of_ne_true h), dmaLoop_idle, hsame]
      intro c hc
      rw [hsame, ← dmaRequest_iff_asks, hnone c] at hc
      exact absurd hc Bool.false_ne_true
  · rw [dmaLoop_serves hc hform (dmaBurst_of_single h)]
    simp only [decide_eq_true_eq]
  · exact dmaLoop_serves hc hform (dmaBurst_of_block h) n
  · exact dmaLoop_serves hc hform (dmaBurst_of_demand_last h hdreq e) n
  · exact dmaLoop_serves hc hform (dmaBurst_of_demand_dropped h hdreq hlt hlow) n

end Sys2Proof.Machine

/-! The interrupt controller (61_platform_devices): the winner by rank, the acknowledge, the commands, the lines and the reads. -/

namespace Sys2Proof.Machine

open Sys2Proof.Claims

/-! Bits of a register by level. -/

theorem getLsbD_setBit (x : Byte) (r q : BitVec 3) (b : Bool) :
    (setBit x r.toNat b).getLsbD q.toNat = if q = r then b else x.getLsbD q.toNat := by
  have hq : q.toNat < 8 := q.isLt
  have heq : r.toNat = q.toNat ↔ q = r := by rw [BitVec.toNat_inj, eq_comm]
  have hbit : (1#8 <<< r.toNat).getLsbD q.toNat = decide (q = r) := by
    rw [← BitVec.twoPow_eq, BitVec.getLsbD_twoPow, Bool.eq_iff_iff, Bool.and_eq_true, decide_eq_true_iff, decide_eq_true_iff,
      decide_eq_true_iff, and_iff_right r.isLt, heq]
  cases b with
  | false =>
    simp only [setBit, Bool.false_eq_true, if_false, BitVec.getLsbD_and, BitVec.getLsbD_not, hbit, hq, decide_true, Bool.true_and]
    by_cases h : q = r <;> simp [h]
  | true =>
    simp only [setBit, if_true, BitVec.getLsbD_or, hbit]
    by_cases h : q = r <;> simp [h]

/-! The winner (61 R1340). -/

/-- The rank of a level: 0 for the one after the lowest, 7 for the lowest. -/
def Pic.rank (p : Pic) (q : BitVec 3) : BitVec 3 := q - p.lowest - 1

theorem levels_rise (p : Pic) : (p.levels.Pairwise fun a b => p.rank a < p.rank b) ∧ ∀ q, q ∈ p.levels := by
  unfold Pic.levels Pic.rank
  generalize p.lowest = l
  revert l
  decide

theorem prio_le_iff (p : Pic) (q r : BitVec 3) : p.prio r ≤ p.prio q ↔ p.rank q ≤ p.rank r := by
  have hq : (q - p.lowest - 1).toNat < 8 := BitVec.isLt _
  have hr : (r - p.lowest - 1).toNat < 8 := BitVec.isLt _
  rw [Pic.prio, Pic.prio, Pic.rank, Pic.rank, BitVec.le_def]
  omega

theorem blocked_of_smm {p : Pic} (h : p.smm = true) (r : BitVec 3) : p.blocked r = p.isr.getLsbD r.toNat := if_pos h

/-- Fully nested, a level is free exactly when nothing from the highest down to it is in service. -/
theorem blocked_eq_false_iff {p : Pic} (h : p.smm = false) (r : BitVec 3) :
    p.blocked r = false ↔ ∀ q, p.rank q ≤ p.rank r → p.isr.getLsbD q.toNat = false := by
  obtain ⟨_, hall⟩ := levels_rise p
  rw [Pic.blocked, if_neg (Bool.eq_false_iff.1 h), List.any_eq_false]
  simp only [hall, true_implies, Bool.and_eq_true, decide_eq_true_eq, prio_le_iff, not_and, Bool.eq_false_iff]
  exact forall_congr' fun q => imp_not_comm

theorem eligible_iff (p : Pic) (r : BitVec 3) : p.eligible r = true ↔
    p.irr.getLsbD r.toNat = true ∧ p.imr.getLsbD r.toNat = false ∧ p.blocked r = false := by
  rw [Pic.eligible, Bool.and_eq_true, Bool.and_eq_true, Bool.not_eq_true', Bool.not_eq_true', and_assoc]

theorem eligible_eq_false_iff (p : Pic) (r : BitVec 3) : p.eligible r = false ↔
    p.irr.getLsbD r.toNat = false ∨ p.imr.getLsbD r.toNat = true ∨ p.blocked r = true := by
  rw [Pic.eligible, Bool.and_eq_false_iff, Bool.and_eq_false_iff, Bool.not_eq_false', Bool.not_eq_false', or_assoc]

theorem winner_eq_some_iff (p : Pic) (r : BitVec 3) : p.winner = some r ↔
    p.eligible r = true ∧ ∀ q, p.rank q < p.rank r → p.eligible q = false := by
  obtain ⟨hrise, hall⟩ := levels_rise p
  exact find?_eq_some_iff_of_rank p.rank hrise hall _ r

/-- Fully nested, a level before the winner is blocked by nothing that does not block the winner too. -/
theorem winner_nested_iff {p : Pic} (h : p.smm = false) (r : BitVec 3) : p.winner = some r ↔
    p.irr.getLsbD r.toNat = true ∧ p.imr.getLsbD r.toNat = false ∧
      (∀ q, p.rank q ≤ p.rank r → p.isr.getLsbD q.toNat = false) ∧
      ∀ q, p.rank q < p.rank r → p.irr.getLsbD q.toNat = false ∨ p.imr.getLsbD q.toNat = true := by
  rw [winner_eq_some_iff, eligible_iff, ← blocked_eq_false_iff h]
  simp only [and_assoc]
  refine and_congr_right fun _ => and_congr_right fun _ => and_congr_right fun hfree =>
    forall_congr' fun q => imp_congr_right fun hq => ?_
  have hfreeq : p.blocked q = false := (blocked_eq_false_iff h q).2 fun l hl =>
    (blocked_eq_false_iff h r).1 hfree l (BitVec.le_trans hl (BitVec.le_of_lt hq))
  rw [eligible_eq_false_iff, hfreeq]
  simp only [Bool.false_eq_true, or_false]

theorem winner_special_iff {p : Pic} (h : p.smm = true) (r : BitVec 3) : p.winner = some r ↔
    p.irr.getLsbD r.toNat = true ∧ p.imr.getLsbD r.toNat = false ∧ p.isr.getLsbD r.toNat = false ∧
      ∀ q, p.rank q < p.rank r →
        p.irr.getLsbD q.toNat = false ∨ p.imr.getLsbD q.toNat = true ∨ p.isr.getLsbD q.toNat = true := by
  rw [winner_eq_some_iff, eligible_iff, blocked_of_smm h]
  simp only [eligible_eq_false_iff, blocked_of_smm h, and_assoc]

/-- A level in service is not requested again. -/
theorem blocked_of_isr {p : Pic} {r : BitVec 3} (h : p.isr.getLsbD r.toNat = true) : p.blocked r = true := by
  cases hs : p.smm with
  | true => rw [blocked_of_smm hs, h]
  | false =>
    rw [← Bool.not_eq_false, blocked_eq_false_iff hs]
    exact fun hfree => absurd (h.symm.trans (hfree r (BitVec.le_refl _))) (by decide)

/-! The acknowledge (61 R1341). -/

/-- The PIC after the acknowledge of its winner r. -/
def Pic.acknowledged (p : Pic) (r : BitVec 3) : Pic :=
  if p.aeoi then
    { p.accept r with isr := setBit (p.accept r).isr r.toNat false, lowest := if p.rotAeoi then r else p.lowest }
  else p.accept r

theorem acknowledge_of_winner {p : Pic} {r : BitVec 3} (h : p.winner = some r) (hu : p.upm = true)
    (hs : p.sngl = true ∨ p.icw3.getLsbD r.toNat = false) :
    p.acknowledge = some (p.base + r.setWidth 8, p.acknowledged r) := by
  have hcascade : (p.icw3.getLsbD r.toNat && !p.sngl) = false := by
    rcases hs with hs | hs <;> simp [hs]
  simp only [Pic.acknowledge, h, hu, hcascade, Bool.not_true, Bool.false_eq_true, if_false]
  rfl

theorem acknowledge_of_no_winner {p : Pic} (h : p.winner = none) (hu : p.upm = true) :
    p.acknowledge = some (p.base + 7, p) := by
  simp only [Pic.acknowledge, h, hu, Bool.not_true, Bool.false_eq_true, if_false]

theorem accept_isr (p : Pic) (r q : BitVec 3) :
    (p.accept r).isr.getLsbD q.toNat = if q = r then true else p.isr.getLsbD q.toNat := getLsbD_setBit _ _ _ _

theorem accept_irr (p : Pic) (r q : BitVec 3) :
    (p.accept r).irr.getLsbD q.toNat = (p.irr.getLsbD q.toNat && (p.ltim || decide (q ≠ r))) := by
  cases hl : p.ltim with
  | true => simp [Pic.accept, hl]
  | false =>
    have h := getLsbD_setBit p.irr r q false
    simp only [Pic.accept, hl, Bool.false_eq_true, if_false, h, Bool.false_or]
    by_cases hq : q = r <;> simp [hq]

theorem acknowledged_irr (p : Pic) (r : BitVec 3) : (p.acknowledged r).irr = (p.accept r).irr := by
  unfold Pic.acknowledged
  split <;> rfl

/-- In and out of service, the acknowledge concerns its level alone. -/
theorem acknowledged_isr (p : Pic) (r q : BitVec 3) :
    (p.acknowledged r).isr.getLsbD q.toNat = if q = r then !p.aeoi else p.isr.getLsbD q.toNat := by
  unfold Pic.acknowledged
  cases p.aeoi with
  | false => exact accept_isr p r q
  | true =>
    have h := accept_isr p r q
    simp only [if_true, getLsbD_setBit, h]
    by_cases hq : q = r <;> simp [hq]

theorem acknowledged_imr (p : Pic) (r : BitVec 3) : (p.acknowledged r).imr = p.imr := by
  unfold Pic.acknowledged
  split <;> rfl

theorem acknowledged_lowest (p : Pic) (r : BitVec 3) :
    (p.acknowledged r).lowest = if p.aeoi && p.rotAeoi then r else p.lowest := by
  unfold Pic.acknowledged
  cases p.aeoi <;> rfl

/-- Settles O53: the winner is the eligible level of least rank, and the acknowledge changes its bits alone. -/
theorem picPriority : Obligations.PicPriority := by
  unfold Obligations.PicPriority
  refine fun p r => ⟨fun h => winner_nested_iff h r, fun h => winner_special_iff h r, fun h hu hs =>
    ⟨_, acknowledge_of_winner h hu hs, acknowledged_imr p r, fun l hl => ⟨?_, ?_⟩, ?_, fun ha => ⟨?_, ?_⟩, fun ha => ⟨?_, ?_⟩⟩,
    acknowledge_of_no_winner⟩
  · exact (acknowledged_isr p r l).trans (if_neg hl)
  · simp only [acknowledged_irr, accept_irr, hl, ne_eq, not_false_eq_true, decide_true, Bool.or_true, Bool.and_true]
  · simp only [acknowledged_irr, accept_irr, ne_eq, not_true_eq_false, decide_false, Bool.or_false]
  · simp only [acknowledged_isr, ha, if_true, Bool.not_false]
  · simp only [acknowledged_lowest, ha, Bool.false_and, Bool.false_eq_true, if_false]
  · simp only [acknowledged_isr, ha, if_true, Bool.not_true]
  · simp only [acknowledged_lowest, ha, Bool.true_and]

/-! Register writes (61 R1331 to R1338). -/

theorem write_icw1 (p : Pic) {v : Byte} (h : v.getLsbD 4 = true) : p.write false v = p.icw1 v := if_pos h

theorem write_ocw3 (p : Pic) {v : Byte} (h4 : v.getLsbD 4 = false) (h3 : v.getLsbD 3 = true) :
    p.write false v = p.ocw3 v := by
  simp only [Pic.write, h4, h3, Bool.false_eq_true, if_false, if_true]

theorem write_ocw1 {p : Pic} (h : p.init = .ready) (v : Byte) : p.write true v = { p with imr := v } := if_pos h

theorem write_icw {p : Pic} (h : p.init ≠ .ready) (v : Byte) : p.write true v = p.nextIcw v := if_neg h

theorem nextIcw_wantIcw2 {p : Pic} (h : p.init = .wantIcw2) (v : Byte) : p.nextIcw v =
    { p with base := v &&& 0xF8, init := if p.sngl then (if p.ic4 then .wantIcw4 else .ready) else .wantIcw3 } := by
  simp only [Pic.nextIcw, h]
  cases p.sngl <;> rfl

theorem int_of_not_ready {p : Pic} (h : p.init ≠ .ready) : p.int = false := by
  rw [Pic.int, beq_false_of_ne h, Bool.false_and]

/-- The level in service that a non-specific EOI takes under the reset priority: the first. -/
theorem inService_of_first {p : Pic} (hl : p.lowest = 7) (hs : p.smm = false) {r : BitVec 3}
    (hr : p.isr.getLsbD r.toNat = true) (hfirst : ∀ q : BitVec 3, q < r → p.isr.getLsbD q.toNat = false) :
    p.inService = some r := by
  have hrank (q : BitVec 3) : p.rank q = q := by rw [Pic.rank, hl]; bv_omega
  obtain ⟨hrise, hall⟩ := levels_rise p
  rw [Pic.inService, find?_eq_some_iff_of_rank p.rank hrise hall]
  simp only [hs, hrank, Bool.false_and, Bool.not_false, Bool.and_true]
  exact ⟨hr, hfirst⟩

theorem inService_of_none {p : Pic} (h : p.isr = 0) : p.inService = none := by
  simp [Pic.inService, h]

theorem write_eoi {p : Pic} {r : BitVec 3} (h : p.inService = some r) :
    p.write false 0x20 = { p with isr := cleared p.isr r } ∧
      p.write false 0xA0 = { p with isr := cleared p.isr r, lowest := r } := by
  have heoi : p.write false 0x20 = p.ocw2 0x20 := rfl
  have hrotate : p.write false 0xA0 = p.ocw2 0xA0 := rfl
  rw [heoi, hrotate, Pic.ocw2, Pic.ocw2, h]
  exact ⟨rfl, rfl⟩

theorem write_eoi_idle {p : Pic} (h : p.inService = none) : p.write false 0x20 = p ∧ p.write false 0xA0 = p := by
  have heoi : p.write false 0x20 = p.ocw2 0x20 := rfl
  have hrotate : p.write false 0xA0 = p.ocw2 0xA0 := rfl
  rw [heoi, hrotate, Pic.ocw2, Pic.ocw2, h]
  exact ⟨rfl, rfl⟩

/-- The commands of OCW2 that name their level. -/
theorem write_specific (p : Pic) (l : BitVec 3) :
    p.write false (0x60 ||| l.setWidth 8) = { p with isr := cleared p.isr l } ∧
    p.write false (0xE0 ||| l.setWidth 8) = { p with isr := cleared p.isr l, lowest := l } ∧
    p.write false (0xC0 ||| l.setWidth 8) = { p with lowest := l } ∧ p.write false (0x40 ||| l.setWidth 8) = p := by
  match l with
  | 0 | 1 | 2 | 3 | 4 | 5 | 6 | 7 => exact ⟨rfl, rfl, rfl, rfl⟩

/-! Lines (61 R1339). -/

theorem setLines_irr (p : Pic) (ir : Byte) (r : BitVec 3) : (p.setLines ir).irr.getLsbD r.toNat =
    (ir.getLsbD r.toNat && (p.ltim || p.irr.getLsbD r.toNat || !p.edgePrev.getLsbD r.toNat)) := by
  have hr : r.toNat < 8 := r.isLt
  have hirr : (p.setLines ir).irr = if p.ltim then ir else (p.irr ||| (ir &&& ~~~p.edgePrev)) &&& ir := rfl
  rw [hirr]
  cases p.ltim with
  | true => simp
  | false =>
    simp only [Bool.false_eq_true, if_false, BitVec.getLsbD_and, BitVec.getLsbD_or, BitVec.getLsbD_not, hr, decide_true,
      Bool.true_and, Bool.false_or]
    cases ir.getLsbD r.toNat <;> simp

/-! Reads and the poll (61 R1331, R1336). -/

theorem picPortRead_of_ready {s : State} (h : s.dev.pic.init = .ready) (a0 : Bool) :
    picPortRead a0 s = ((s.dev.pic.read a0).1, s.mapPic fun p => (p.read a0).2) :=
  if_neg (by rw [h]; decide)

/-- A read of port 0x20 of an initialised PIC. -/
theorem portRead_pic {s : State} (h : s.dev.pic.init = .ready) : (portRead 0x20 s).1.value = (s.dev.pic.read false).1 ∧
    (portRead 0x20 s).2.dev = { s.dev with pic := (s.dev.pic.read false).2 } := by
  have hport : portRead 0x20 s = plainAnswer (picPortRead false s) := rfl
  rw [hport, picPortRead_of_ready h]
  exact ⟨rfl, rfl⟩

/-- A read of port 0x21 of an initialised PIC. -/
theorem portRead_picMask {s : State} (h : s.dev.pic.init = .ready) : (portRead 0x21 s).1.value = s.dev.pic.imr ∧
    (portRead 0x21 s).2.dev = s.dev := by
  have hport : portRead 0x21 s = plainAnswer (picPortRead true s) := rfl
  rw [hport, picPortRead_of_ready h]
  exact ⟨rfl, rfl⟩

theorem read_unpolled {p : Pic} (h : p.poll = false) :
    p.read false = (if p.readSel = .irr then p.irr else p.isr, p) := by
  simp only [Pic.read, h, Bool.false_eq_true, if_false]
  cases p.readSel <;> rfl

theorem read_polled {p : Pic} (h : p.poll = true) : p.read false = p.pollRead := if_pos h

theorem pollRead_of_winner {p : Pic} {r : BitVec 3} (h : p.winner = some r) (hi : p.init = .ready) :
    p.pollRead = (0x80 ||| r.setWidth 8, { p.accept r with poll := false }) := by
  simp only [Pic.pollRead, h, hi, if_true]

theorem pollRead_of_no_winner {p : Pic} (h : p.winner = none) : p.pollRead = (0, { p with poll := false }) := by
  simp only [Pic.pollRead, h]

/-- ICW1 (61 R1332): the sequence begins again and the registers are cleared. -/
theorem icw1_leaves (p : Pic) (v : Byte) :
    let q := p.icw1 v
    q.init = .wantIcw2 ∧ q.imr = 0 ∧ q.isr = 0 ∧ q.irr = 0 ∧ q.ir = p.ir ∧ q.edgePrev = p.ir ∧ q.lowest = 7 ∧
    q.smm = false ∧ q.readSel = .irr ∧ q.poll = false ∧ q.rotAeoi = false ∧ q.ltim = v.getLsbD 3 ∧ q.sngl = v.getLsbD 1 ∧
    q.ic4 = v.getLsbD 0 ∧
    (v.getLsbD 0 = false → q.upm = false ∧ q.aeoi = false ∧ q.buf = false ∧ q.ms = false ∧ q.sfnm = false) := by
  unfold Pic.icw1
  cases v.getLsbD 0 with
  | false => exact ⟨rfl, rfl, rfl, rfl, rfl, rfl, rfl, rfl, rfl, rfl, rfl, rfl, rfl, rfl, fun _ => ⟨rfl, rfl, rfl, rfl, rfl⟩⟩
  | true => exact ⟨rfl, rfl, rfl, rfl, rfl, rfl, rfl, rfl, rfl, rfl, rfl, rfl, rfl, rfl, nofun⟩

/-- Settles O54: each command is its register write, the non-specific EOI takes the level `inService` finds, a line sets its own
bit, and a read is `Pic.read`, the poll included. -/
theorem picCommands : Obligations.PicCommands := by
  unfold Obligations.PicCommands
  refine ⟨fun s v => ⟨rfl, rfl⟩, fun p v h => ?_, fun p v => ⟨fun h => ?_, fun h => ?_, fun h => ?_, fun h => ?_,
    fun h => write_ocw1 h v, fun h4 h3 => write_ocw3 p h4 h3⟩, fun p r hl hs hr hfirst => write_eoi (inService_of_first hl hs hr hfirst),
    fun p l => ?_, fun p ir r => ⟨rfl, setLines_irr p ir r⟩, fun s hi => ?_⟩
  · rw [write_icw1 p h]
    obtain ⟨hinit, hrest⟩ := icw1_leaves p v
    exact ⟨hinit, int_of_not_ready (by rw [hinit]; decide), hrest⟩
  · rw [write_icw (by rw [h]; decide)]
    simp only [Pic.nextIcw, h]
  · rw [write_icw (by rw [h]; decide), nextIcw_wantIcw2 h]
  · rw [write_icw (by rw [h]; decide)]
    simp only [Pic.nextIcw, h]
  · rw [write_icw (by rw [h]; decide)]
    simp only [Pic.nextIcw, h]
  · obtain ⟨heoi, hrotate, hset, hnop⟩ := write_specific p l
    refine ⟨fun h => write_eoi_idle (inService_of_none h), heoi, hrotate, hset, hnop, rfl, rfl, fun hisr hw => ?_⟩
    obtain ⟨_, _, hfree⟩ := (eligible_iff p l).1 ((winner_eq_some_iff p l).1 hw).1
    exact absurd ((blocked_of_isr hisr).symm.trans hfree) (by decide)
  · obtain ⟨hmask, hkeep⟩ := portRead_picMask hi
    obtain ⟨hvalue, hdev⟩ := portRead_pic hi
    rw [hvalue, hdev]
    refine ⟨hmask, hkeep, fun h => ?_, fun h => ?_⟩
    · rw [read_unpolled h]
      exact ⟨by cases s.dev.pic.readSel <;> rfl, rfl⟩
    · rw [read_polled h]
      cases hw : s.dev.pic.winner with
      | none =>
        rw [pollRead_of_no_winner hw]
        exact ⟨rfl, fun _ => rfl, nofun⟩
      | some w =>
        rw [pollRead_of_winner hw hi]
        refine ⟨rfl, nofun, fun r hr => ?_⟩
        obtain rfl := Option.some.inj hr
        exact ⟨rfl, (accept_isr _ w w).trans (if_pos rfl), fun hl => by
          simpa [hl] using accept_irr s.dev.pic w w⟩

end Sys2Proof.Machine

/-! The interval timer (61_platform_devices): what programming a counter leaves, and for each mode the counter any number of
clocks after it has loaded, in closed form. -/

namespace Sys2Proof.Machine

open Sys2Proof.Claims

/-! Programming (61 R1352, R1354). -/

/-- The counter programmed to a mode, binary, with the count n written. -/
def PitCounter.withCount (c : PitCounter) (m : PitMode) (n : Word) : PitCounter :=
  { c with
    cr := n, rl := .both, mode := m, bcd := false, wff := false, rff := false, latched := false, programmed := true
    countValid := true, loadPending := m != .m1 && m != .m5, counting := false, extra := false, out := m != .m0
    free := (m == .m2 || m == .m3) && n == 1 }

theorem controlWord_fields (sel : Byte) (m : BitVec 3) : (controlWord sel (m.setWidth 8)).extractLsb' 4 2 = (3 : BitVec 2) ∧
    (controlWord sel (m.setWidth 8)).extractLsb' 1 3 = m ∧ (controlWord sel (m.setWidth 8)).getLsbD 0 = false := by
  have hword : controlWord sel (m.setWidth 8) = (sel &&& 0xC0#8) ||| 0x30#8 ||| (m.setWidth 8 <<< 1) := rfl
  have hrl : (0xC0#8).extractLsb' 4 2 = 0#2 := rfl
  have hm : (0xC0#8).extractLsb' 1 3 = 0#3 := rfl
  have hbcd : (0xC0#8).getLsbD 0 = false := rfl
  simp only [hword, BitVec.extractLsb'_or, BitVec.extractLsb'_and, BitVec.getLsbD_or, BitVec.getLsbD_and, hrl, hm, hbcd,
    BitVec.and_zero, Bool.and_false]
  clear hword
  revert m
  decide

/-- The control word of a mode: everything but the count, and OUT low in mode 0 alone. -/
theorem control_controlWord (c : PitCounter) (sel : Byte) (m : BitVec 3) : c.control (controlWord sel (m.setWidth 8)) =
    { c with
      rl := .both, mode := pitModeOf m, bcd := false, wff := false, rff := false, latched := false, programmed := true
      countValid := false, loadPending := false, counting := false, extra := false, out := pitModeOf m != .m0
      free := false } := by
  obtain ⟨hrl, hm, hbcd⟩ := controlWord_fields sel m
  rw [PitCounter.control, hrl, hm, hbcd]
  rfl

theorem programmedTo_eq (c : PitCounter) (sel lo hi : Byte) (m : BitVec 3) :
    programmedTo c sel (m.setWidth 8) lo hi = c.withCount (pitModeOf m) (mkWord hi lo) := by
  rw [programmedTo, control_controlWord]
  generalize pitModeOf m = m
  cases m <;> simp [PitCounter.writeCount, PitCounter.complete, PitCounter.withCount, PitCounter.illegalCount]

/-! Clocks (61 R1366). -/

theorem pitClocksOf_succ (k : Nat) (c : PitCounter) : pitClocksOf (k + 1) c = (pitClocksOf k c).clock := by
  induction k generalizing c with
  | zero => rfl
  | succ k ih => exact ih c.clock

/-- Nothing but the counting clocks of its mode happens to the counter: no edge or load to come, and no pause. -/
structure Counts (c : PitCounter) : Prop where
  programmed : c.programmed = true
  binary : c.bcd = false
  noEdge : c.gateRise = false
  noLoad : c.loadPending = false
  counting : c.counting = true
  unpaused : (c.gated && !c.gate) = false

theorem Counts.clock {c : PitCounter} (h : Counts c) : c.clock = c.clockMode := by
  simp only [PitCounter.clock, PitCounter.clockNoEdge, h.programmed, h.noEdge, h.noLoad, h.counting, h.unpaused, Bool.not_true,
    Bool.false_eq_true, if_false]

theorem Counts.dec {c : PitCounter} (h : Counts c) (x : Word) : c.dec x = x - 1 := if_neg (Bool.eq_false_iff.1 h.binary)

/-- The N of a count (61 R1355). -/
def periodOf (n : Word) : Nat := if n = 0 then 65536 else n.toNat

theorem periodOf_pos (n : Word) : 1 ≤ periodOf n := by
  unfold periodOf
  split
  · omega
  · bv_omega

theorem periodOf_lt (n : Word) : periodOf n ≤ 65536 := by
  unfold periodOf
  split
  · omega
  · exact n.isLt.le

theorem ofNat_periodOf (n : Word) : BitVec.ofNat 16 (periodOf n) = n := by
  unfold periodOf
  split
  next h => rw [h]; rfl
  next => rw [BitVec.ofNat_toNat, BitVec.setWidth_eq]

/-- Within one period, the count less k is j exactly when k and j make up N. -/
theorem sub_ofNat_eq_iff {n : Word} {k j : Nat} (h : k + j ≤ periodOf n) (hpos : 0 < k + j) :
    n - BitVec.ofNat 16 k = BitVec.ofNat 16 j ↔ k + j = periodOf n := by
  have hle := periodOf_lt n
  have hn := congrArg BitVec.toNat (ofNat_periodOf n)
  rw [BitVec.toNat_ofNat] at hn
  bv_omega

theorem sub_ofNat_succ (n : Word) (k : Nat) : n - BitVec.ofNat 16 k - 1 = n - BitVec.ofNat 16 (k + 1) := by
  rw [BitVec.sub_sub, BitVec.ofNat_add]
  rfl

/-! Modes 0 and 1 (61 R1357, R1358). -/

/-- A loaded counter of mode 0 or 1, k clocks on. -/
def PitCounter.after01 (c : PitCounter) (k : Nat) : PitCounter :=
  { c with
    ce := c.ce - BitVec.ofNat 16 k, out := decide (periodOf c.ce ≤ k), expired := decide (periodOf c.ce ≤ k) }

theorem clock01_after01 {c : PitCounter} (h : Counts c) (k : Nat) : (c.after01 k).clock01 = c.after01 (k + 1) := by
  have hdec : (c.after01 k).dec (c.after01 k).ce = c.ce - BitVec.ofNat 16 (k + 1) :=
    (h.dec _).trans (sub_ofNat_succ c.ce k)
  rw [PitCounter.clock01, hdec]
  by_cases hk : periodOf c.ce ≤ k
  · rw [if_neg fun e => of_decide_eq_false e.2 hk]
    simp [PitCounter.after01, hk, Nat.le_succ_of_le hk]
  · have hzero := sub_ofNat_eq_iff (n := c.ce) (k := k + 1) (j := 0) (by omega) (by omega)
    by_cases he : k + 1 = periodOf c.ce
    · rw [if_pos ⟨hzero.2 he, decide_eq_false hk⟩]
      simp [PitCounter.after01, he]
    · rw [if_neg fun e => he (hzero.1 e.1)]
      simp [PitCounter.after01, hk, show ¬ periodOf c.ce ≤ k + 1 by omega]

theorem pitClocksOf_01 {c : PitCounter} (h : Counts c) (hm : c.mode = .m0 ∨ c.mode = .m1) (hout : c.out = false)
    (hexpired : c.expired = false) (k : Nat) : pitClocksOf k c = c.after01 k := by
  induction k with
  | zero =>
    have hpos := periodOf_pos c.ce
    have hlow : decide (periodOf c.ce ≤ 0) = false := decide_eq_false (by omega)
    obtain ⟨⟩ := c
    simp_all [PitCounter.after01, pitClocksOf]
  | succ k ih =>
    have hk : Counts (c.after01 k) := ⟨h.programmed, h.binary, h.noEdge, h.noLoad, h.counting, h.unpaused⟩
    rw [pitClocksOf_succ, ih, hk.clock, ← clock01_after01 h]
    rcases hm with hm | hm <;> simp only [PitCounter.clockMode, show (c.after01 k).mode = _ from hm]

/-! Modes 4 and 5 (61 R1361, R1362). -/

/-- A loaded counter of mode 4 or 5, k clocks on: CE stands still in the clock that ends the strobe (log 48). -/
def PitCounter.after45 (c : PitCounter) (k : Nat) : PitCounter :=
  { c with
    ce := c.ce - BitVec.ofNat 16 (if k ≤ periodOf c.ce then k else k - 1), out := decide (k ≠ periodOf c.ce)
    strobe := decide (k = periodOf c.ce), expired := decide (periodOf c.ce ≤ k) }

theorem clock45_after45 {c : PitCounter} (h : Counts c) (k : Nat) : (c.after45 k).clock45 = c.after45 (k + 1) := by
  rw [PitCounter.clock45]
  rcases Nat.lt_trichotomy k (periodOf c.ce) with hk | hk | hk
  · have hdec : (c.after45 k).dec (c.after45 k).ce = c.ce - BitVec.ofNat 16 (k + 1) := by
      rw [PitCounter.after45, if_pos hk.le, ← sub_ofNat_succ]
      exact h.dec _
    have hzero := sub_ofNat_eq_iff (n := c.ce) (k := k + 1) (j := 0) (by omega) (by omega)
    rw [if_neg (show ¬ (c.after45 k).strobe = true by simpa [PitCounter.after45] using hk.ne), hdec]
    by_cases he : k + 1 = periodOf c.ce
    · rw [if_pos ⟨hzero.2 he, decide_eq_false (by omega)⟩]
      simp [PitCounter.after45, he]
    · rw [if_neg fun e => he (hzero.1 e.1)]
      simp [PitCounter.after45, he, hk.ne, show k + 1 ≤ periodOf c.ce by omega, show ¬ periodOf c.ce ≤ k by omega,
        show ¬ periodOf c.ce ≤ k + 1 by omega]
  · rw [if_pos (show (c.after45 k).strobe = true by simpa [PitCounter.after45] using hk)]
    simp [PitCounter.after45, hk]
  · have hdec : (c.after45 k).dec (c.after45 k).ce = c.ce - BitVec.ofNat 16 k := by
      have hsucc : k - 1 + 1 = k := by omega
      have hce := sub_ofNat_succ c.ce (k - 1)
      rw [hsucc] at hce
      rw [PitCounter.after45, if_neg (by omega), ← hce]
      exact h.dec _
    have hexpired : ¬ (c.after45 k).expired = false := by simpa [PitCounter.after45] using hk.le
    rw [if_neg (show ¬ (c.after45 k).strobe = true by simpa [PitCounter.after45] using hk.ne'), hdec, if_neg fun e => hexpired e.2]
    simp [PitCounter.after45, hk.ne', hk.le, show ¬ k + 1 = periodOf c.ce by omega, show ¬ k + 1 ≤ periodOf c.ce by omega,
      show periodOf c.ce ≤ k + 1 by omega]

theorem pitClocksOf_45 {c : PitCounter} (h : Counts c) (hm : c.mode = .m4 ∨ c.mode = .m5) (hout : c.out = true)
    (hstrobe : c.strobe = false) (hexpired : c.expired = false) (k : Nat) : pitClocksOf k c = c.after45 k := by
  induction k with
  | zero =>
    have hpos := periodOf_pos c.ce
    have hlow : decide (periodOf c.ce ≤ 0) = false := decide_eq_false (by omega)
    have hne : ¬ 0 = periodOf c.ce := by omega
    obtain ⟨⟩ := c
    simp_all [PitCounter.after45, pitClocksOf]
  | succ k ih =>
    have hk : Counts (c.after45 k) := ⟨h.programmed, h.binary, h.noEdge, h.noLoad, h.counting, h.unpaused⟩
    rw [pitClocksOf_succ, ih, hk.clock, ← clock45_after45 h]
    rcases hm with hm | hm <;> simp only [PitCounter.clockMode, show (c.after45 k).mode = _ from hm]

theorem after45_ce (c : PitCounter) {k : Nat} (h : k ≤ periodOf c.ce) : (c.after45 k).ce = c.ce - BitVec.ofNat 16 k := by
  rw [PitCounter.after45, if_pos h]

/-! Mode 2 (61 R1359). -/

/-- The place in the period after one more clock. -/
theorem succ_mod_eq {k n : Nat} (h : 1 ≤ n) : (k + 1) % n = if k % n = n - 1 then 0 else k % n + 1 := by
  have hlt := Nat.mod_lt k h
  have hdiv := Nat.div_add_mod k n
  split
  next hk =>
    have hmul : k + 1 = n * (k / n + 1) := by rw [Nat.mul_add, Nat.mul_one]; omega
    rw [hmul, Nat.mul_mod_right]
  next hk =>
    have hsum : k + 1 = k % n + 1 + n * (k / n) := by omega
    rw [hsum, Nat.add_mul_mod_self_left, Nat.mod_eq_of_lt (by omega)]

/-- A loaded counter of mode 2, k clocks on. -/
def PitCounter.after2 (c : PitCounter) (k : Nat) : PitCounter :=
  { c with
    ce := c.cr - BitVec.ofNat 16 (k % periodOf c.cr), out := decide (k % periodOf c.cr ≠ periodOf c.cr - 1) }

theorem two_le_periodOf {n : Word} (h : n ≠ 1) : 2 ≤ periodOf n := by
  unfold periodOf
  split
  · omega
  · bv_omega

theorem clock2_after2 {c : PitCounter} (h : Counts c) (hn : c.cr ≠ 1) (k : Nat) :
    (c.after2 k).clock2 = c.after2 (k + 1) := by
  have hN := two_le_periodOf hn
  have hlt := Nat.mod_lt k (Nat.lt_of_lt_of_le Nat.two_pos hN)
  have hsucc := succ_mod_eq (k := k) (n := periodOf c.cr) (by omega)
  rw [PitCounter.clock2]
  by_cases hk : k % periodOf c.cr = periodOf c.cr - 1
  · rw [if_pos hk] at hsucc
    rw [if_neg (show ¬ (c.after2 k).out = true by simpa [PitCounter.after2] using hk)]
    simp [PitCounter.after2, hsucc, show ¬ 0 = periodOf c.cr - 1 by omega]
  · rw [if_neg hk] at hsucc
    have hdec : (c.after2 k).dec (c.after2 k).ce = c.cr - BitVec.ofNat 16 (k % periodOf c.cr + 1) :=
      (h.dec _).trans (sub_ofNat_succ _ _)
    rw [if_pos (show (c.after2 k).out = true by simpa [PitCounter.after2] using hk), hdec]
    have hone : c.cr - BitVec.ofNat 16 (k % periodOf c.cr + 1) = 1 ↔ k % periodOf c.cr + 1 + 1 = periodOf c.cr :=
      sub_ofNat_eq_iff (k := k % periodOf c.cr + 1) (j := 1) (by omega) (by omega)
    have hbne : (c.cr - BitVec.ofNat 16 (k % periodOf c.cr + 1) != 1) = decide (k % periodOf c.cr + 1 ≠ periodOf c.cr - 1) := by
      rw [Bool.eq_iff_iff, bne_iff_ne, decide_eq_true_iff, Ne, hone]
      omega
    rw [hbne, PitCounter.after2, PitCounter.after2, hsucc]

theorem pitClocksOf_2 {c : PitCounter} (h : Counts c) (hm : c.mode = .m2) (hn : c.cr ≠ 1) (hce : c.ce = c.cr) (hout : c.out = true)
    (k : Nat) : pitClocksOf k c = c.after2 k := by
  induction k with
  | zero =>
    have hN := two_le_periodOf hn
    have hne : ¬ 0 = periodOf c.cr - 1 := by omega
    obtain ⟨⟩ := c
    simp_all [PitCounter.after2, pitClocksOf]
  | succ k ih =>
    have hk : Counts (c.after2 k) := ⟨h.programmed, h.binary, h.noEdge, h.noLoad, h.counting, h.unpaused⟩
    rw [pitClocksOf_succ, ih, hk.clock, ← clock2_after2 h hn]
    simp only [PitCounter.clockMode, show (c.after2 k).mode = _ from hm]

/-! Mode 3 (61 R1360). -/

/-- The longer half of the period, in which OUT is high, the odd clock included. -/
def highHalf (n : Word) : Nat := (periodOf n + 1) / 2

/-- The clocks of a half period in which CE goes down by 2 to 0. -/
def downHalf (n : Word) : Nat := periodOf n / 2

/-- The period is the count, or 2^16 more. -/
theorem toNat_eq_periodOf_mod (n : Word) : n.toNat = periodOf n % 65536 := by
  have hn := congrArg BitVec.toNat (ofNat_periodOf n)
  rw [BitVec.toNat_ofNat] at hn
  exact hn.symm

theorem evenCount_eq (n : Word) : evenCount n = BitVec.ofNat 16 (2 * downHalf n) := by
  have hmask : ∀ i < 16, (0xFFFE#16).getLsbD i = !decide (i < 1) := by decide
  have hshift : evenCount n = (n >>> 1) <<< 1 := by
    apply BitVec.eq_of_getLsbD_eq
    intro i hi
    rw [evenCount, BitVec.getLsbD_and, BitVec.getLsbD_shiftLeft, BitVec.getLsbD_ushiftRight, decide_eq_true hi, Bool.true_and]
    rw [show (0xFFFE : Word).getLsbD i = _ from hmask i hi, Bool.and_comm]
    by_cases h : i < 1
    · simp [h]
    · rw [show 1 + (i - 1) = i by omega]
  have hn := toNat_eq_periodOf_mod n
  rw [hshift]
  apply BitVec.eq_of_toNat_eq
  rw [BitVec.toNat_shiftLeft, BitVec.toNat_ushiftRight, BitVec.toNat_ofNat, Nat.shiftLeft_eq, Nat.shiftRight_eq_div_pow,
    downHalf]
  omega

/-- An odd count has the one clock more. -/
theorem getLsbD_zero_eq (n : Word) : n.getLsbD 0 = decide (downHalf n < highHalf n) := by
  have hn := toNat_eq_periodOf_mod n
  have hbit : n.getLsbD 0 = decide (n.toNat % 2 = 1) := Nat.testBit_zero _
  rw [hbit, decide_eq_decide, downHalf, highHalf]
  omega

/-- A counter of mode 3 in a half period with OUT as given, i double steps down. -/
def PitCounter.half3 (c : PitCounter) (out extra : Bool) (i : Nat) : PitCounter :=
  { c with ce := BitVec.ofNat 16 (2 * (downHalf c.cr - i)), out := out, extra := extra }

@[simp] theorem half3_cr (c : PitCounter) (out extra : Bool) (i : Nat) : (c.half3 out extra i).cr = c.cr := rfl
@[simp] theorem half3_out (c : PitCounter) (out extra : Bool) (i : Nat) : (c.half3 out extra i).out = out := rfl
@[simp] theorem half3_extra (c : PitCounter) (out extra : Bool) (i : Nat) : (c.half3 out extra i).extra = extra := rfl

theorem clock3_extra (c : PitCounter) (out : Bool) (i : Nat) : (c.half3 out true i).clock3 = c.half3 false false 0 := by
  rw [PitCounter.clock3, half3_extra, if_pos rfl, half3_cr, evenCount_eq]
  rfl

section

variable {c : PitCounter} (h : Counts c) {i : Nat} (out : Bool)

include h

theorem dec_dec_half3 (hi : i < downHalf c.cr) : (c.half3 out false i).dec ((c.half3 out false i).dec (c.half3 out false i).ce) =
    BitVec.ofNat 16 (2 * (downHalf c.cr - (i + 1))) := by
  have hdec (x : Word) : (c.half3 out false i).dec x = x - 1 := h.dec x
  have hce : (c.half3 out false i).ce = BitVec.ofNat 16 (2 * (downHalf c.cr - i)) := rfl
  rw [hdec, hdec, hce]
  bv_omega

theorem clock3_down (hi : i + 1 < downHalf c.cr) : (c.half3 out false i).clock3 = c.half3 out false (i + 1) := by
  have hle := periodOf_lt c.cr
  have hdown : downHalf c.cr = periodOf c.cr / 2 := rfl
  rw [PitCounter.clock3, half3_extra, if_neg Bool.false_ne_true,
    dec_dec_half3 h out (by omega), if_neg (by bv_omega)]
  rfl

/-- The last double step: the odd clock follows where there is one, else the other half. -/
theorem clock3_last (hi : i + 1 = downHalf c.cr) : (c.half3 out false i).clock3 =
    if downHalf c.cr < highHalf c.cr ∧ out = true then c.half3 out true (i + 1) else c.half3 (!out) false 0 := by
  rw [PitCounter.clock3, half3_extra, if_neg Bool.false_ne_true,
    dec_dec_half3 h out (by omega), if_pos (by bv_omega)]
  have hodd : ((c.half3 out false i).cr.getLsbD 0 && (c.half3 out false i).out) = true ↔
      downHalf c.cr < highHalf c.cr ∧ out = true := by
    rw [Bool.and_eq_true, half3_cr, half3_out, getLsbD_zero_eq, decide_eq_true_iff]
  have heven : evenCount (c.half3 out false i).cr = BitVec.ofNat 16 (2 * (downHalf c.cr - 0)) := evenCount_eq _
  simp only [hodd, heven]
  rfl

end

/-- A loaded counter of mode 3, k clocks on: OUT is high in the longer half, the odd clock its last. -/
def PitCounter.after3 (c : PitCounter) (k : Nat) : PitCounter :=
  let j := k % periodOf c.cr
  if j < highHalf c.cr then c.half3 true (decide (j = downHalf c.cr)) j else c.half3 false false (j - highHalf c.cr)

theorem after3_high {c : PitCounter} {k : Nat} (h : k % periodOf c.cr < highHalf c.cr) :
    c.after3 k = c.half3 true (decide (k % periodOf c.cr = downHalf c.cr)) (k % periodOf c.cr) := if_pos h

theorem after3_low {c : PitCounter} {k : Nat} (h : ¬ k % periodOf c.cr < highHalf c.cr) :
    c.after3 k = c.half3 false false (k % periodOf c.cr - highHalf c.cr) := if_neg h

theorem clock3_after3 {c : PitCounter} (h : Counts c) (hn : c.cr ≠ 1) (k : Nat) :
    (c.after3 k).clock3 = c.after3 (k + 1) := by
  have hN := two_le_periodOf hn
  have hhigh : highHalf c.cr = (periodOf c.cr + 1) / 2 := rfl
  have hdown : downHalf c.cr = periodOf c.cr / 2 := rfl
  have hlt := Nat.mod_lt k (Nat.lt_of_lt_of_le Nat.two_pos hN)
  have hsucc := succ_mod_eq (k := k) (n := periodOf c.cr) (by omega)
  by_cases hj : k % periodOf c.cr < highHalf c.cr
  · rw [if_neg (by omega)] at hsucc
    rw [after3_high hj]
    rcases Nat.lt_trichotomy (k % periodOf c.cr + 1) (downHalf c.cr) with he | he | he
    · rw [decide_eq_false (by omega), clock3_down h true he, after3_high (by omega), hsucc, decide_eq_false (by omega)]
    · rw [decide_eq_false (by omega), clock3_last h true he]
      by_cases hodd : downHalf c.cr < highHalf c.cr
      · rw [if_pos ⟨hodd, rfl⟩, after3_high (by omega), hsucc, decide_eq_true he]
      · rw [if_neg fun e => hodd e.1, after3_low (by omega), hsucc, show k % periodOf c.cr + 1 - highHalf c.cr = 0 by omega]
        rfl
    · rw [decide_eq_true (by omega), clock3_extra, after3_low (by omega), hsucc,
        show k % periodOf c.cr + 1 - highHalf c.cr = 0 by omega]
  · rw [after3_low hj]
    by_cases he : k % periodOf c.cr = periodOf c.cr - 1
    · rw [if_pos he] at hsucc
      rw [clock3_last h false (by omega), if_neg fun e => Bool.false_ne_true e.2, after3_high (by omega), hsucc,
        decide_eq_false (by omega)]
      rfl
    · rw [if_neg he] at hsucc
      rw [clock3_down h false (by omega), after3_low (by omega), hsucc,
        show k % periodOf c.cr + 1 - highHalf c.cr = k % periodOf c.cr - highHalf c.cr + 1 by omega]

theorem pitClocksOf_3 {c : PitCounter} (h : Counts c) (hm : c.mode = .m3) (hn : c.cr ≠ 1) (hce : c.ce = evenCount c.cr)
    (hout : c.out = true) (hextra : c.extra = false) (k : Nat) : pitClocksOf k c = c.after3 k := by
  induction k with
  | zero =>
    have hN := two_le_periodOf hn
    have hhigh : 0 < highHalf c.cr := by unfold highHalf; omega
    have hdown : ¬ 0 = downHalf c.cr := by unfold downHalf; omega
    rw [evenCount_eq] at hce
    obtain ⟨⟩ := c
    simp_all [PitCounter.after3, PitCounter.half3, pitClocksOf]
  | succ k ih =>
    rw [pitClocksOf_succ, ih, ← clock3_after3 h hn]
    have hmode : Counts (c.after3 k) ∧ (c.after3 k).mode = .m3 := by
      unfold PitCounter.after3
      dsimp only
      split <;> exact ⟨⟨h.programmed, h.binary, h.noEdge, h.noLoad, h.counting, h.unpaused⟩, hm⟩
    rw [hmode.1.clock, PitCounter.clockMode, hmode.2]

theorem after3_out (c : PitCounter) (k : Nat) : (c.after3 k).out = decide (k % periodOf c.cr < (periodOf c.cr + 1) / 2) := by
  by_cases h : k % periodOf c.cr < highHalf c.cr
  · rw [after3_high h]
    exact (decide_eq_true h).symm
  · rw [after3_low h]
    exact (decide_eq_false h).symm

/-! From the programmed counter to the loaded one (61 R1354, R1366). -/

/-- The counter after the clock that loads its count. -/
def PitCounter.loadedWith (c : PitCounter) (m : PitMode) (n : Word) : PitCounter :=
  PitCounter.load { c.withCount m n with gateRise := false, loadPending := false }

/-- Without an edge a count written in mode 1 or 5 waits. -/
theorem clock_untriggered {c : PitCounter} (he : c.gateRise = false) {m : PitMode} (hm : m = .m1 ∨ m = .m5) (n : Word) :
    (c.withCount m n).clock = c.withCount m n := by
  obtain ⟨⟩ := c
  subst he
  rcases hm with rfl | rfl <;> rfl

theorem pitClocksOf_untriggered {c : PitCounter} (he : c.gateRise = false) {m : PitMode} (hm : m = .m1 ∨ m = .m5) (n : Word)
    (k : Nat) : pitClocksOf k (c.withCount m n) = c.withCount m n := by
  induction k with
  | zero => rfl
  | succ k ih => rw [pitClocksOf_succ, ih, clock_untriggered he hm]

/-- In modes 0 and 4 an edge is passed over and the written count loads. -/
theorem clock_loads_04 (c : PitCounter) {m : PitMode} (hm : m = .m0 ∨ m = .m4) (n : Word) :
    (c.withCount m n).clock = c.loadedWith m n := by
  match c with
  | { gateRise := false, .. } => rcases hm with rfl | rfl <;> rfl
  | { gateRise := true, .. } => rcases hm with rfl | rfl <;> rfl

theorem clock_loads_23 {c : PitCounter} (he : c.gateRise = false) {m : PitMode} (hm : m = .m2 ∨ m = .m3) (n : Word) :
    (c.withCount m n).clock = c.loadedWith m n := by
  obtain ⟨⟩ := c
  subst he
  rcases hm with rfl | rfl <;> rfl

/-- The counter after the clock of an edge in mode 1 or 5: loaded, OUT low in mode 1 from then on. -/
def PitCounter.triggeredWith (c : PitCounter) (m : PitMode) (n : Word) : PitCounter :=
  { c.loadedWith m n with out := m != .m1 }

theorem clock_triggered (c : PitCounter) {m : PitMode} (hm : m = .m1 ∨ m = .m5) (n : Word) :
    PitCounter.clock { c.withCount m n with gateRise := true } = c.triggeredWith m n := by
  rcases hm with rfl | rfl <;> rfl

theorem triggeredWith_counts (c : PitCounter) {m : PitMode} (hm : m = .m1 ∨ m = .m5) (n : Word) :
    Counts (c.triggeredWith m n) := by
  refine ⟨rfl, rfl, rfl, rfl, rfl, ?_⟩
  rcases hm with rfl | rfl <;> rfl

theorem loadedWith_counts {c : PitCounter} (h : c.gate = true) (m : PitMode) (n : Word) : Counts (c.loadedWith m n) := by
  have hgate : (c.loadedWith m n).gate = true := h
  refine ⟨rfl, rfl, rfl, rfl, rfl, ?_⟩
  rw [hgate, Bool.not_true, Bool.and_false]

theorem countOf_eq_periodOf (lo hi : Byte) : countOf lo hi = periodOf (mkWord hi lo) := rfl

/-- Settles O55: the load clock, then the closed form of modes 0 and 1. -/
theorem pitModeZero : Obligations.PitModeZero := by
  unfold Obligations.PitModeZero
  intro c lo hi sel hgate
  have hcontrol : c.control (controlWord sel 0) = _ := control_controlWord c sel 0
  have hd : programmedTo c sel 0 lo hi = c.withCount .m0 (mkWord hi lo) := programmedTo_eq c sel lo hi 0
  dsimp only
  rw [hcontrol, hd]
  refine ⟨rfl, rfl, rfl, fun k => ?_⟩
  rw [pitClocksOf, clock_loads_04 c (.inl rfl), pitClocksOf_01 (loadedWith_counts hgate _ _) (.inl rfl) rfl rfl]
  exact ⟨rfl, rfl⟩

/-! GATE (61 R1356, R1363). -/

theorem clock_paused {c : PitCounter} (hgate : c.gate = false) (hedge : c.gateRise = false) (hload : c.loadPending = false)
    (h1 : c.mode ≠ .m1) (h5 : c.mode ≠ .m5) : c.clock = c := by
  have hgated : c.gated = true := by
    unfold PitCounter.gated
    cases hm : c.mode with
    | m1 => exact absurd hm h1
    | m5 => exact absurd hm h5
    | _ => rfl
  simp only [PitCounter.clock, PitCounter.clockNoEdge, hedge, hload, hgated, hgate, Bool.not_false, Bool.and_self,
    Bool.false_eq_true, if_false, if_true, ite_self]

theorem setGate_rise {c : PitCounter} (h : c.gate = false) :
    (c.setGate true).gateRise = true ∧ (c.setGate true).out = c.out := by
  simp [PitCounter.setGate, h]

theorem setGate_fall {c : PitCounter} (h : c.gate = true) : (c.setGate false).gateRise = c.gateRise ∧
    (c.setGate false).out = (c.out || decide (c.mode = .m2 ∨ c.mode = .m3)) := by
  refine ⟨rfl, ?_⟩
  simp only [PitCounter.setGate, h]
  cases c.mode <;> simp

/-- Settles O56: each mode's load clock, then its closed form. -/
theorem pitModes : Obligations.PitModes := by
  unfold Obligations.PitModes
  refine ⟨fun c lo hi sel => ?_, fun c => ⟨setGate_rise, setGate_fall, clock_paused⟩⟩
  have d1 : programmedTo c sel 1 lo hi = c.withCount .m1 (mkWord hi lo) := programmedTo_eq c sel lo hi 1
  have d2 : programmedTo c sel 2 lo hi = c.withCount .m2 (mkWord hi lo) := programmedTo_eq c sel lo hi 2
  have d3 : programmedTo c sel 3 lo hi = c.withCount .m3 (mkWord hi lo) := programmedTo_eq c sel lo hi 3
  have d4 : programmedTo c sel 4 lo hi = c.withCount .m4 (mkWord hi lo) := programmedTo_eq c sel lo hi 4
  have d5 : programmedTo c sel 5 lo hi = c.withCount .m5 (mkWord hi lo) := programmedTo_eq c sel lo hi 5
  have d6 : programmedTo c sel 6 lo hi = c.withCount .m2 (mkWord hi lo) := programmedTo_eq c sel lo hi 6
  have d7 : programmedTo c sel 7 lo hi = c.withCount .m3 (mkWord hi lo) := programmedTo_eq c sel lo hi 7
  dsimp only
  rw [d1, d2, d3, d4, d5, d6, d7, countOf_eq_periodOf]
  generalize mkWord hi lo = n
  refine ⟨⟨rfl, fun he => pitClocksOf_untriggered he (.inl rfl) n, fun k => ?_⟩,
    ⟨rfl, fun he => pitClocksOf_untriggered he (.inr rfl) n, fun k => ?_⟩,
    fun hgate => ⟨⟨rfl, fun k => ?_⟩, fun hn he => ⟨⟨rfl, rfl, fun k => ?_⟩, ⟨rfl, rfl, fun k => ?_⟩⟩⟩⟩
  · rw [pitClocksOf, clock_triggered c (.inl rfl), pitClocksOf_01 (triggeredWith_counts c (.inl rfl) n) (.inr rfl) rfl rfl]
    exact ⟨rfl, rfl⟩
  · rw [pitClocksOf, clock_triggered c (.inr rfl), pitClocksOf_45 (triggeredWith_counts c (.inr rfl) n) (.inr rfl) rfl rfl rfl]
    exact ⟨rfl, after45_ce (c.triggeredWith .m5 n)⟩
  · rw [pitClocksOf, clock_loads_04 c (.inr rfl), pitClocksOf_45 (loadedWith_counts hgate _ n) (.inl rfl) rfl rfl rfl]
    exact ⟨rfl, after45_ce (c.loadedWith .m4 n)⟩
  · rw [pitClocksOf, clock_loads_23 he (.inl rfl), pitClocksOf_2 (loadedWith_counts hgate _ n) rfl hn rfl rfl]
    exact ⟨rfl, rfl⟩
  · rw [pitClocksOf, clock_loads_23 he (.inr rfl), pitClocksOf_3 (loadedWith_counts hgate _ n) rfl hn rfl rfl rfl]
    exact after3_out _ k

end Sys2Proof.Machine

/-! The ports of the timer and of the DMA controller (61_platform_devices). -/

namespace Sys2Proof.Machine

open Sys2Proof.Claims

/-! The timer's ports (61 R1351 to R1354). -/

theorem Pit.get_set_same (p : Pit) (i : BitVec 2) (c : PitCounter) : (p.set i c).get i = c := by
  match i with
  | 0 | 1 | 2 | 3 => rfl

/-- A counter whose OUT and CE are no draws is written as it is. -/
theorem putCounter_get {c : PitCounter} (h : c.free = false) (s : State) (i : BitVec 2) :
    (s.putCounter i c).dev.pit.get i = c := by
  have hdraw : drawCounter c s = (c, s) := if_neg (Bool.eq_false_iff.1 h)
  rw [State.putCounter, hdraw]
  exact Pit.get_set_same _ i c

theorem portWrite_counter {i : BitVec 2} (h : i ≠ 3) (v : Byte) (s : State) :
    portWrite (0x40 + i.setWidth 16) v s = pitWrite i v s := by
  match i with
  | 0 | 1 | 2 => rfl
  | 3 => exact absurd rfl h

theorem portRead_counter {i : BitVec 2} (h : i ≠ 3) (s : State) :
    portRead (0x40 + i.setWidth 16) s = plainAnswer (pitRead i s) := by
  match i with
  | 0 | 1 | 2 => rfl
  | 3 => exact absurd rfl h

theorem pitControl_of_select {i : BitVec 2} (h : i ≠ 3) {v : Byte} (hv : v.extractLsb' 6 2 = i) (s : State) :
    pitControl v s = s.putCounter i ((s.dev.pit.get i).control v) := by
  subst hv
  exact if_neg h

/-- A defined read gives the byte RL says, and the counter takes its state after the read. -/
theorem pitRead_defined {s : State} {i : BitVec 2} (hp : (s.dev.pit.get i).programmed = true)
    (hl : (s.dev.pit.get i).loaded = true) (hf : (s.dev.pit.get i).free = false) :
    pitRead i s = ((s.dev.pit.get i).readValue, s.mapDev fun d => { d with pit := d.pit.set i (s.dev.pit.get i).afterRead }) := by
  have hfree : (s.dev.pit.get i).readIsFree = false := by simp only [PitCounter.readIsFree, hp, hl, hf]; rfl
  simp only [pitRead, hfree, hp, Bool.false_eq_true, if_false, if_true]

/-! The counter latch and the reads (61 R1353, R1364). -/

theorem control_latch (c : PitCounter) (sel : Byte) : c.control (sel &&& 0xCF) = c.latch := by
  have hrl : (sel &&& 0xCF).extractLsb' 4 2 = (0 : BitVec 2) := by
    rw [BitVec.extractLsb'_and]
    exact BitVec.and_zero
  exact if_pos hrl

theorem readValue_low {c : PitCounter} (h : c.rl = .lsb ∨ (c.rl = .both ∧ c.rff = false)) :
    c.readValue = loByte (if c.latched then c.ol else c.ce) := by
  rcases h with h | ⟨h, hr⟩
  · simp only [PitCounter.readValue, h]
  · simp only [PitCounter.readValue, h, hr, Bool.false_eq_true, if_false]

theorem readValue_high {c : PitCounter} (h : c.rl = .msb ∨ (c.rl = .both ∧ c.rff = true)) :
    c.readValue = hiByte (if c.latched then c.ol else c.ce) := by
  rcases h with h | ⟨h, hr⟩
  · simp only [PitCounter.readValue, h]
  · simp only [PitCounter.readValue, h, hr, if_true]

/-- A read of the one byte undoes the latch. -/
theorem afterRead_single {c : PitCounter} (h : c.rl = .lsb ∨ c.rl = .msb) : c.afterRead = { c with latched := false } := by
  unfold PitCounter.afterRead
  rcases h with h | h <;> split <;> simp_all

theorem afterRead_first {c : PitCounter} (h : c.rl = .both) (hr : c.rff = false) : c.afterRead = { c with rff := true } := by
  unfold PitCounter.afterRead
  split <;> simp_all

theorem afterRead_second {c : PitCounter} (h : c.rl = .both) (hr : c.rff = true) :
    c.afterRead = { c with rff := false, latched := false } := by
  unfold PitCounter.afterRead
  split <;> simp_all

/-! The DMA controller's ports (61 R1401 to R1408). -/

theorem portWrite_dmaAddr (c : BitVec 2) (v : Byte) (s : State) :
    portWrite (2 * c.setWidth 16) v s = s.mapDma fun d => d.writeXfer (c ++ 0#1) v := by
  match c with
  | 0 | 1 | 2 | 3 => rfl

theorem portWrite_dmaCount (c : BitVec 2) (v : Byte) (s : State) :
    portWrite (2 * c.setWidth 16 + 1) v s = s.mapDma fun d => d.writeXfer (c ++ 1#1) v := by
  match c with
  | 0 | 1 | 2 | 3 => rfl

theorem portRead_dmaAddr (c : BitVec 2) (s : State) : portRead (2 * c.setWidth 16) s =
    plainAnswer ((s.dev.dma.readXfer (c ++ 0#1)).1, s.mapDma fun d => (d.readXfer (c ++ 0#1)).2) := by
  match c with
  | 0 | 1 | 2 | 3 => rfl

theorem portRead_dmaCount (c : BitVec 2) (s : State) : portRead (2 * c.setWidth 16 + 1) s =
    plainAnswer ((s.dev.dma.readXfer (c ++ 1#1)).1, s.mapDma fun d => (d.readXfer (c ++ 1#1)).2) := by
  match c with
  | 0 | 1 | 2 | 3 => rfl

/-- The two bytes of a register, written low then high. -/
theorem withByte_low_high (w : Word) (lo hi : Byte) : withByte (withByte w false lo) true hi = mkWord hi lo :=
  congrArg (mkWord hi) (loByte_mkWord _ lo)

/-- Two changes of a channel under the flip-flop, from clear back to clear. -/
theorem set_twice {d : Dma} (h : d.ff = false) (c : BitVec 2) (x y : DmaChannel) :
    ({ ({ d.set c x with ff := true } : Dma).set c y with ff := false } : Dma) = d.set c y := by
  obtain ⟨⟩ := d
  subst h
  match c with
  | 0 | 1 | 2 | 3 => rfl

theorem set_ff_get (d : Dma) (c : BitVec 2) (x : DmaChannel) (b : Bool) : ({ d.set c x with ff := b } : Dma).get c = x :=
  Dma.get_set_same d c x

theorem writeXfer_addr (d : Dma) (c : BitVec 2) (v : Byte) : d.writeXfer (c ++ 0#1) v =
    { d.set c { d.get c with baseAddr := withByte (d.get c).baseAddr d.ff v, curAddr := withByte (d.get c).curAddr d.ff v } with
      ff := !d.ff } := by
  match c with
  | 0 | 1 | 2 | 3 => rfl

theorem writeXfer_count (d : Dma) (c : BitVec 2) (v : Byte) : d.writeXfer (c ++ 1#1) v =
    { d.set c { d.get c with
        baseCount := withByte (d.get c).baseCount d.ff v, curCount := withByte (d.get c).curCount d.ff v } with
      ff := !d.ff } := by
  match c with
  | 0 | 1 | 2 | 3 => rfl

/-- Two writes under a clear flip-flop give a channel its address, low byte first. -/
theorem writeXfer_addr_twice {d : Dma} (h : d.ff = false) (c : BitVec 2) (lo hi : Byte) :
    (d.writeXfer (c ++ 0#1) lo).writeXfer (c ++ 0#1) hi =
      d.set c { d.get c with baseAddr := mkWord hi lo, curAddr := mkWord hi lo } := by
  rw [writeXfer_addr d, h, writeXfer_addr]
  simp only [Bool.not_false, Bool.not_true, set_ff_get, withByte_low_high, set_twice h]

theorem writeXfer_count_twice {d : Dma} (h : d.ff = false) (c : BitVec 2) (lo hi : Byte) :
    (d.writeXfer (c ++ 1#1) lo).writeXfer (c ++ 1#1) hi =
      d.set c { d.get c with baseCount := mkWord hi lo, curCount := mkWord hi lo } := by
  rw [writeXfer_count d, h, writeXfer_count]
  simp only [Bool.not_false, Bool.not_true, set_ff_get, withByte_low_high, set_twice h]

theorem readXfer_addr (d : Dma) (c : BitVec 2) : d.readXfer (c ++ 0#1) =
    (if d.ff then hiByte (d.get c).curAddr else loByte (d.get c).curAddr, { d with ff := !d.ff }) := by
  match c with
  | 0 | 1 | 2 | 3 => rfl

theorem readXfer_count (d : Dma) (c : BitVec 2) : d.readXfer (c ++ 1#1) =
    (if d.ff then hiByte (d.get c).curCount else loByte (d.get c).curCount, { d with ff := !d.ff }) := by
  match c with
  | 0 | 1 | 2 | 3 => rfl

theorem getLsbD_ite_zero (b : Bool) (x : Byte) (j : Nat) : (if b then x else 0).getLsbD j = (b && x.getLsbD j) := by
  cases b <;> simp

/-- The status byte has TC in bit c and the request state in bit 4 + c (61 R1404). -/
theorem dmaStatus_bits (s : State) (c : BitVec 2) : (dmaStatus s).getLsbD c.toNat = (s.dev.dma.get c).tc ∧
    (dmaStatus s).getLsbD (4 + c.toNat) = (dreqActive s c || (s.dev.dma.get c).req) := by
  simp only [dmaStatus, BitVec.getLsbD_or, getLsbD_ite_zero]
  match c with
  | 0 | 1 | 2 | 3 => constructor <;> simp [Dma.get]

/-! What the other accesses leave in one channel. -/

theorem mapAll_get (f : DmaChannel → DmaChannel) (d : Dma) (c : BitVec 2) : (d.mapAll f).get c = f (d.get c) := by
  match c with
  | 0 | 1 | 2 | 3 => rfl

theorem writeMasks_get (d : Dma) (v : Byte) (c : BitVec 2) : (d.writeMasks v).get c = { d.get c with mask := v.getLsbD c.toNat } := by
  match c with
  | 0 | 1 | 2 | 3 => rfl

theorem masterClear_get (d : Dma) (c : BitVec 2) :
    d.masterClear.get c = { d.get c with tc := false, req := false, mask := true } := by
  match c with
  | 0 | 1 | 2 | 3 => rfl

/-- Settles O57: each port is its register's access, which changes the counter or the channel named. -/
theorem devicePorts : Obligations.DevicePorts := by
  unfold Obligations.DevicePorts
  refine ⟨fun s i v hi => ⟨fun h => ?_, fun hv h => ?_, fun hv => ?_, fun hp hl hf => ?_⟩,
    fun c sel => ⟨control_latch c sel, fun h => ⟨readValue_low (.inl h), afterRead_single (.inl h)⟩,
      fun h => ⟨readValue_high (.inl h), afterRead_single (.inr h)⟩,
      fun h hr => ⟨readValue_low (.inr ⟨h, hr⟩), afterRead_first h hr⟩,
      fun h hr => ⟨readValue_high (.inr ⟨h, hr⟩), afterRead_second h hr⟩⟩,
    fun s c lo hi v => ⟨fun h => ⟨?_, ?_⟩, ?_, ?_, ?_, ?_, rfl, ?_, ?_, mapAll_get _ _ c, ?_, rfl, rfl, rfl,
      masterClear_get _ c, rfl, rfl, rfl, rfl, mapAll_get _ _ c, writeMasks_get _ v c⟩,
    fun s v => ⟨rfl, rfl, rfl, rfl⟩⟩
  · rw [portWrite_counter hi]
    exact putCounter_get h s i
  · have hport : portWrite 0x43 v s = pitControl v s := rfl
    rw [hport, pitControl_of_select hi hv]
    exact putCounter_get h s i
  · have hport : portWrite 0x43 v s = pitControl v s := rfl
    rw [hport, pitControl, if_pos hv]
  · rw [portRead_counter hi, pitRead_defined hp hl hf]
    exact ⟨rfl, Pit.get_set_same _ i _⟩
  · rw [portWrite_dmaAddr, portWrite_dmaAddr]
    exact writeXfer_addr_twice h c lo hi
  · rw [portWrite_dmaCount, portWrite_dmaCount]
    exact writeXfer_count_twice h c lo hi
  · rw [portRead_dmaAddr, readXfer_addr]
    rfl
  · rw [portRead_dmaAddr]
    exact congrArg Prod.snd (readXfer_addr s.dev.dma c)
  · rw [portRead_dmaCount, readXfer_count]
    rfl
  · rw [portRead_dmaCount]
    exact congrArg Prod.snd (readXfer_count s.dev.dma c)
  · exact (dmaStatus_bits s c).1
  · exact (dmaStatus_bits s c).2
  · rintro rfl
    exact ⟨rfl, rfl, rfl⟩

end Sys2Proof.Machine

/-! The scheduler step (61_platform_devices): what the DMA step leaves alone, the clocks of the timer as events, and the step from
its parts. -/

namespace Sys2Proof.Machine

open Sys2Proof.Claims

/-! What the DMA step leaves alone (61 R1409, R1410). -/

/-- From s to t nothing of CPU, parameters and devices has changed but the DMA controller and the refresh request, and nothing of
the environment but its DREQ lines and its answers. -/
structure DmaOnly (s t : State) : Prop where
  cpu : t.cpu = s.cpu
  params : t.params = s.params
  dev : t.dev = { s.dev with dma := t.dev.dma, refreshReq := t.dev.refreshReq }
  env : t.env = { s.env with dreq := t.env.dreq, dreqSamples := t.env.dreqSamples, answers := t.env.answers }

theorem DmaOnly.refl (s : State) : DmaOnly s s := ⟨rfl, rfl, rfl, rfl⟩

theorem DmaOnly.trans {s t u : State} (h : DmaOnly s t) (k : DmaOnly t u) : DmaOnly s u := by
  refine ⟨k.cpu.trans h.cpu, k.params.trans h.params, ?_, ?_⟩
  · have hdev := k.dev
    rw [h.dev] at hdev
    exact hdev
  · have henv := k.env
    rw [h.env] at henv
    exact henv

theorem oracleRead_dmaOnly (s : State) : DmaOnly s (oracleRead s).2 := by
  unfold oracleRead
  split <;> exact ⟨rfl, rfl, rfl, rfl⟩

theorem dispatchRead_dmaOnly (a : LinAddr) (s : State) : DmaOnly s (dispatchRead a s).2 := by
  unfold dispatchRead
  split
  · exact oracleRead_dmaOnly s
  · exact .refl s

theorem dmaAccess_dmaOnly (c : BitVec 2) (x : DmaChannel) (s : State) : DmaOnly s (dmaAccess c x s) := by
  unfold dmaAccess
  cases x.xfer with
  | verify => exact .refl s
  | write => exact (oracleRead_dmaOnly s).trans ⟨rfl, rfl, rfl, rfl⟩
  | read =>
    dsimp only
    split
    · exact .refl s
    · exact (dispatchRead_dmaOnly _ s).trans ⟨rfl, rfl, rfl, rfl⟩
  | illegal => exact .refl s

theorem dmaTransfer_dmaOnly (c : BitVec 2) (s : State) : DmaOnly s (dmaTransfer c s) :=
  (dmaAccess_dmaOnly c _ s).trans ⟨rfl, rfl, rfl, rfl⟩

theorem sampleDreq_dmaOnly (s : State) : DmaOnly s (sampleDreq s) := by
  unfold sampleDreq
  split
  · exact ⟨rfl, rfl, rfl, rfl⟩
  · exact .refl s

theorem dmaBurst_dmaOnly (n : Nat) (c : BitVec 2) (s : State) : DmaOnly s (dmaBurst n c s).2 := by
  induction n generalizing s with
  | zero => exact .refl s
  | succ n ih =>
    have h := dmaTransfer_dmaOnly c s
    simp only [dmaBurst]
    split
    · exact h
    · split
      · exact h.trans (ih _)
      · split
        · exact (h.trans (sampleDreq_dmaOnly _)).trans (ih _)
        · exact h.trans (sampleDreq_dmaOnly _)
      · exact h
      · exact h

theorem servedLast_dmaOnly (c : BitVec 2) (s : State) : DmaOnly s (servedLast c s) := ⟨rfl, rfl, rfl, rfl⟩

theorem dmaLoop_dmaOnly (n : Nat) (done : List (BitVec 2)) (s : State) : DmaOnly s (dmaLoop n done s) := by
  induction n generalizing done s with
  | zero => exact .refl s
  | succ n ih =>
    have h := sampleDreq_dmaOnly s
    simp only [dmaLoop]
    split
    · exact h
    · split
      · exact h.trans ⟨rfl, rfl, rfl, rfl⟩
      · exact ((h.trans (dmaBurst_dmaOnly ..)).trans (servedLast_dmaOnly _ _)).trans (ih _ _)

theorem dmaStep_dmaOnly (s : State) : DmaOnly s (dmaStep s) := by
  unfold dmaStep
  split
  · exact .refl s
  · exact dmaLoop_dmaOnly _ _ s

/-! The timer's clocks (61 R1302, R1366). -/

/-- From s to t only the timer, what its outputs reach, and the free values have changed. -/
def TimerOnly (s t : State) : Prop :=
  t = { s with
    dev := { s.dev with pit := t.dev.pit, pic := t.dev.pic, refreshReq := t.dev.refreshReq }
    draws := t.draws }

theorem TimerOnly.refl (s : State) : TimerOnly s s := rfl

theorem TimerOnly.trans {s t u : State} (h : TimerOnly s t) (k : TimerOnly t u) : TimerOnly s u := by
  unfold TimerOnly at h k ⊢
  rw [h] at k
  exact k

/-! A clock leaves whether OUT and CE are draws (61 R1355). -/

theorem clock01_free (c : PitCounter) : c.clock01.free = c.free := by
  simp only [PitCounter.clock01]
  split <;> rfl

theorem clock2_free (c : PitCounter) : c.clock2.free = c.free := by
  unfold PitCounter.clock2
  split <;> rfl

theorem clock3_free (c : PitCounter) : c.clock3.free = c.free := by
  simp only [PitCounter.clock3]
  split
  · rfl
  · split
    · split <;> rfl
    · rfl

theorem clock45_free (c : PitCounter) : c.clock45.free = c.free := by
  simp only [PitCounter.clock45]
  split
  · rfl
  · split <;> rfl

theorem clockMode_free (c : PitCounter) : c.clockMode.free = c.free := by
  unfold PitCounter.clockMode
  split
  · exact clock01_free c
  · exact clock01_free c
  · exact clock2_free c
  · exact clock3_free c
  · exact clock45_free c
  · exact clock45_free c

theorem clockNoEdge_free (c : PitCounter) : c.clockNoEdge.free = c.free := by
  unfold PitCounter.clockNoEdge
  split
  · rfl
  · split
    · rfl
    · split
      · rfl
      · exact clockMode_free c

theorem clock_free (c : PitCounter) : c.clock.free = c.free := by
  unfold PitCounter.clock
  split
  · rfl
  · split
    · dsimp only
      split
      · rfl
      · rfl
      · rfl
      · rfl
      · exact clockNoEdge_free _
    · exact clockNoEdge_free c

/-- A counter's clock, its free values drawn. -/
theorem drawCounter_clock (c : PitCounter) (s : State) :
    Ticked c (drawCounter c.clock s).1 ∧ TimerOnly s (drawCounter c.clock s).2 ∧ (drawCounter c.clock s).2.dev = s.dev := by
  have hfree := clock_free c
  by_cases h : c.free = true
  · have hdraw : drawCounter c.clock s = _ := if_pos (hfree.trans h)
    rw [hdraw]
    exact ⟨⟨_, _, (if_pos h).symm⟩, rfl, rfl⟩
  · have hdraw : drawCounter c.clock s = _ := if_neg (hfree ▸ h)
    rw [hdraw]
    exact ⟨⟨c.out, c.ce, (if_neg h).symm⟩, rfl, rfl⟩

/-- One clock of the timer is its three ticks and their events. -/
theorem pitClock_ticked (s : State) : PitTicked s.dev (pitClock s).dev ∧ TimerOnly s (pitClock s) := by
  obtain ⟨h0, k0, d0⟩ := drawCounter_clock s.dev.pit.c0 s
  have hclock : pitClock s =
      let r0 := drawCounter s.dev.pit.c0.clock s
      let r1 := drawCounter s.dev.pit.c1.clock r0.2
      let r2 := drawCounter s.dev.pit.c2.clock r1.2
      r2.2.setPit { c0 := r0.1, c1 := r1.1, c2 := r2.1 } := by
    have d1 := (drawCounter_clock s.dev.pit.c1 (drawCounter s.dev.pit.c0.clock s).2).2.2
    simp only [pitClock, d0, d1]
  dsimp only at hclock
  generalize drawCounter s.dev.pit.c0.clock s = r0 at hclock h0 k0 d0
  obtain ⟨h1, k1, d1⟩ := drawCounter_clock s.dev.pit.c1 r0.2
  generalize drawCounter s.dev.pit.c1.clock r0.2 = r1 at hclock h1 k1 d1
  obtain ⟨h2, k2, d2⟩ := drawCounter_clock s.dev.pit.c2 r1.2
  generalize drawCounter s.dev.pit.c2.clock r1.2 = r2 at hclock h2 k2 d2
  have hdev : r2.2.dev = s.dev := d2.trans (d1.trans d0)
  have hset : TimerOnly r2.2 (pitClock s) := by rw [hclock]; rfl
  refine ⟨?_, ((k0.trans k1).trans k2).trans hset⟩
  simp only [hclock, State.setPit, mapDev_dev, hdev]
  exact ⟨h0, h1, h2, rfl, rfl, rfl, rfl, rfl⟩

/-- The timer with no counter programmed stands still, as the clocks of its counters do. -/
theorem pitTicked_of_unprogrammed {d : Devices} (h0 : d.pit.c0.programmed = false) (h1 : d.pit.c1.programmed = false)
    (h2 : d.pit.c2.programmed = false) : PitTicked d d := by
  have hticked {c : PitCounter} (h : c.programmed = false) : Ticked c c := by
    have hclock : c.clock = c := by simp only [PitCounter.clock, h, Bool.not_false, if_true]
    exact ⟨c.out, c.ce, by rw [hclock]; exact (ite_self c).symm⟩
  exact ⟨hticked h0, hticked h1, hticked h2, (if_pos rfl).symm, by rw [Bool.and_not_self, Bool.or_false], rfl, rfl, rfl⟩

theorem pitClocks_succ (k : Nat) (s : State) : pitClocks (k + 1) s = pitClock (pitClocks k s) := by
  induction k generalizing s with
  | zero => rfl
  | succ k ih => exact ih (pitClock s)

theorem pitClocks_timerOnly (k : Nat) (s : State) : TimerOnly s (pitClocks k s) := by
  induction k with
  | zero => exact .refl s
  | succ k ih => rw [pitClocks_succ]; exact ih.trans (pitClock_ticked _).2

theorem pitStep_timerOnly (k : Nat) (s : State) : TimerOnly s (pitStep k s) := by
  simp only [pitStep]
  split
  · exact pitClocks_timerOnly k s
  · exact .refl s

theorem pitStep_zero (s : State) : pitStep 0 s = s := ite_self s

/-- Clock by clock, the timer's step. -/
theorem pitStep_ticked (k : Nat) (s : State) : PitTicked (pitStep k s).dev (pitStep (k + 1) s).dev := by
  simp only [pitStep]
  split
  next => rw [pitClocks_succ]; exact (pitClock_ticked _).1
  next h =>
    simp only [Bool.or_eq_true, not_or, Bool.not_eq_true] at h
    exact pitTicked_of_unprogrammed h.1.1 h.1.2 h.2

/-- A counter that is no draw is clocked once for each clock. -/
theorem ticked_iterate {u : Nat → PitCounter} (hu : ∀ k, Ticked (u k) (u (k + 1))) (hfree : (u 0).free = false) (n : Nat) :
    u n = pitClocksOf n (u 0) ∧ (u n).free = false := by
  induction n with
  | zero => exact ⟨rfl, hfree⟩
  | succ n ih =>
    obtain ⟨hn, hnfree⟩ := ih
    obtain ⟨o, w, h⟩ := hu n
    rw [hnfree, if_neg Bool.false_ne_true] at h
    exact ⟨by rw [h, hn, pitClocksOf_succ], by rw [h, clock_free, hnfree]⟩

/-- A counter of the timer that is no draw, over the timer's step; get names the counter. -/
theorem pitStep_counter {get : Pit → PitCounter} (hget : ∀ {a b : Devices}, PitTicked a b → Ticked (get a.pit) (get b.pit))
    {s : State} (hfree : (get s.dev.pit).free = false) (n : Nat) :
    get (pitStep n s).dev.pit = pitClocksOf n (get s.dev.pit) := by
  have hclocked := (ticked_iterate (u := fun k => get (pitStep k s).dev.pit) (fun k => hget (pitStep_ticked k s))
    (by rw [pitStep_zero]; exact hfree) n).1
  simp only [pitStep_zero] at hclocked
  exact hclocked

/-! The step (61 R1310 to R1316, 60 R1232). -/

/-- The CPU step's cycles: the environment's next figure, at least 1 (log 8). -/
theorem takeCycles_one_le (s : State) : 1 ≤ (takeCycles s).1 := by
  unfold takeCycles
  split <;> exact Nat.le_max_left ..

theorem takeCycles_of_cons {s : State} {m : Nat} {l : List Nat} (h : s.env.cycles = m :: l) :
    (takeCycles s).1 = max 1 m ∧ (takeCycles s).2.env.cycles = l := by
  rw [takeCycles, h]
  exact ⟨rfl, rfl⟩

theorem takeCycles_fields (s : State) :
    (takeCycles s).2 = { s with env := (takeCycles s).2.env, draws := (takeCycles s).2.draws } ∧
    (takeCycles s).2.env = { s.env with cycles := (takeCycles s).2.env.cycles } := by
  unfold takeCycles
  split <;> exact ⟨rfl, rfl⟩

/-- The state in which the timer's clocks of the step begin. -/
def schedulerStart (s : State) : State :=
  ppiStep (picStep ((takeCycles s).2.mapDev fun d => { d with sched := (budget s.params s.dev.sched (takeCycles s).1).2 }))

/-- The state in which the DMA step is made. -/
def schedulerClocked (s : State) : State := pitStep (budget s.params s.dev.sched (takeCycles s).1).1 (schedulerStart s)

theorem schedulerStep_eq (s : State) : schedulerStep s =
    sampleNmi ((dmaStep (schedulerClocked s)).mapDev fun d =>
      { d with sched := { d.sched with imminent := imminentHint (dmaStep (schedulerClocked s)) } }) := rfl

theorem schedulerStart_dev (s : State) : (schedulerStart s).dev = { s.dev with
    pit := { s.dev.pit with c2 := s.dev.pit.c2.setGate (s.dev.ppiB.getLsbD 0) }
    pic := s.dev.pic.setLines ((s.env.ir &&& 0xFE) ||| (s.dev.pic.ir &&& 0x01))
    sched := (budget s.params s.dev.sched (takeCycles s).1).2 } := by
  obtain ⟨hstate, henv⟩ := takeCycles_fields s
  have hdev : (takeCycles s).2.dev = s.dev := by rw [hstate]
  have hir : (takeCycles s).2.env.ir = s.env.ir := by rw [henv]
  simp only [schedulerStart, ppiStep, picStep, State.setPit, mapDev_dev, mapDev_env, mapPic_dev, hdev, hir, if_true,
    Bool.and_not_self, Bool.or_false]

/-- What the step leaves alone up to the DMA step. -/
theorem schedulerClocked_fields (s : State) :
    let v := schedulerClocked s
    v.cpu = s.cpu ∧ v.bus = s.bus ∧ v.params = s.params ∧ v.history = s.history ∧ v.marks = s.marks ∧
      v.env = { s.env with cycles := (takeCycles s).2.env.cycles } ∧ v.dev.ppiB = s.dev.ppiB ∧ v.dev.nmiMask = s.dev.nmiMask ∧
      v.dev.sched = (budget s.params s.dev.sched (takeCycles s).1).2 := by
  obtain ⟨hstate, henv⟩ := takeCycles_fields s
  have hstart := schedulerStart_dev s
  have hstart' : schedulerStart s = { (takeCycles s).2 with dev := (schedulerStart s).dev } := rfl
  have hclocked : schedulerClocked s = _ := pitStep_timerOnly _ (schedulerStart s)
  dsimp only
  rw [hclocked, hstart', hstart, hstate, ← henv]
  exact ⟨rfl, rfl, rfl, rfl, rfl, rfl, rfl, rfl, rfl⟩

/-- The counters that are no draws, when the DMA step is made. -/
theorem schedulerClocked_counters (s : State) :
    let n := (budget s.params s.dev.sched (takeCycles s).1).1
    let p := s.dev.pit
    let q := (schedulerClocked s).dev.pit
    (p.c0.free = false → q.c0 = pitClocksOf n p.c0) ∧ (p.c1.free = false → q.c1 = pitClocksOf n p.c1) ∧
      (p.c2.free = false → q.c2 = pitClocksOf n (p.c2.setGate (s.dev.ppiB.getLsbD 0))) := by
  have h0 := pitStep_counter (get := Pit.c0) (fun h => h.1) (s := schedulerStart s)
  have h1 := pitStep_counter (get := Pit.c1) (fun h => h.2.1) (s := schedulerStart s)
  have h2 := pitStep_counter (get := Pit.c2) (fun h => h.2.2.1) (s := schedulerStart s)
  rw [schedulerStart_dev] at h0 h1 h2
  exact ⟨fun h => h0 h _, fun h => h1 h _, fun h => h2 h _⟩

/-- What the DMA step and the NMI sample leave of the devices. -/
theorem schedulerStep_dev (s : State) :
    let t := schedulerStep s
    let v := schedulerClocked s
    t.dev.pit = v.dev.pit ∧ t.dev.pic = v.dev.pic ∧ t.dev.ppiB = v.dev.ppiB ∧ t.dev.nmiMask = v.dev.nmiMask ∧
      t.dev.sched = { v.dev.sched with imminent := imminentHint (dmaStep v) } := by
  have hdma := (dmaStep_dmaOnly (schedulerClocked s)).dev
  have hdev : (schedulerStep s).dev = { (dmaStep (schedulerClocked s)).dev with sched :=
    { (dmaStep (schedulerClocked s)).dev.sched with imminent := imminentHint (dmaStep (schedulerClocked s)) } } := rfl
  dsimp only
  rw [hdev, hdma]
  exact ⟨rfl, rfl, rfl, rfl, rfl⟩

theorem schedulerStep_cpu (s : State) :
    let nmi := s.env.nmiSource && s.dev.nmiMask.getLsbD 7
    (schedulerStep s).cpu = { s.cpu with nmiLatch := s.cpu.nmiLatch || (nmi && !s.cpu.nmiPrev), nmiPrev := nmi } := by
  obtain ⟨hcpu, _, _, _, _, henv, _, hmask, _⟩ := schedulerClocked_fields s
  have hdma := dmaStep_dmaOnly (schedulerClocked s)
  have hinput : nmiInput (dmaStep (schedulerClocked s)) = (s.env.nmiSource && s.dev.nmiMask.getLsbD 7) := by
    rw [nmiInput, hdma.env, hdma.dev, henv, hmask]
  have hstep : (schedulerStep s).cpu =
      { (dmaStep (schedulerClocked s)).cpu with
        nmiLatch := (dmaStep (schedulerClocked s)).cpu.nmiLatch ||
          (nmiInput (dmaStep (schedulerClocked s)) && !(dmaStep (schedulerClocked s)).cpu.nmiPrev)
        nmiPrev := nmiInput (dmaStep (schedulerClocked s)) } := rfl
  rw [hstep, hinput, hdma.cpu, hcpu]

theorem schedulerStep_cycles (s : State) : (schedulerStep s).env.cycles = (takeCycles s).2.env.cycles := by
  obtain ⟨_, _, _, _, _, henv, _⟩ := schedulerClocked_fields s
  have hstep : (schedulerStep s).env.cycles = (dmaStep (schedulerClocked s)).env.cycles := rfl
  rw [hstep, (dmaStep_dmaOnly (schedulerClocked s)).env, henv]

/-- The hint is counter 0's, as the timer's clocks leave it (61 R1316). -/
theorem imminentHint_clocked (s : State) : imminentHint (dmaStep (schedulerClocked s)) =
    ((schedulerClocked s).dev.pit.c0.counting &&
      decide ((schedulerClocked s).dev.pit.c0.ce.toNat ≤ s.params.imminentThreshold)) := by
  obtain ⟨_, _, hparams, _⟩ := schedulerClocked_fields s
  have hdma := dmaStep_dmaOnly (schedulerClocked s)
  rw [imminentHint, hdma.dev, hdma.params, hparams]

/-- System ticks of n cycles (61 R1312), those carried over added. -/
def stepTicks (f : ClockFactor) (d : Sched) (n : Nat) : Nat := d.extra + (sysTicks f d.sysFrac n).1

theorem budget_eq (p : Params) (d : Sched) (n : Nat) : budget p d n = ((d.pitRem + stepTicks p.clockFactor d n) / 12,
    { d with
      sysFrac := (sysTicks p.clockFactor d.sysFrac n).2, pitRem := (d.pitRem + stepTicks p.clockFactor d n) % 12
      usFrac := (d.usFrac + stepTicks p.clockFactor d n * 1000000) % p.systemCrystalHz, extra := 0 }) := by
  rw [stepTicks, Nat.add_comm d.extra]
  rfl

theorem stepTicks_eq (f : ClockFactor) (d : Sched) (n : Nat) : stepTicks f d n = d.extra +
    match f with
    | .divisor k => n * k
    | .multiplier m => (d.sysFrac + n) / m := by
  cases f <;> rfl

theorem sysTicks_frac (f : ClockFactor) (frac n : Nat) : (sysTicks f frac n).2 =
    match f with
    | .divisor _ => frac
    | .multiplier m => (frac + n) % m := by
  cases f <;> rfl

/-- Settles O45: the parts of the step are the budget, the timer's clocks one by one, the DMA step and the NMI sample. -/
theorem schedulerStep_holds : Obligations.SchedulerStep := by
  unfold Obligations.SchedulerStep
  intro s
  obtain ⟨_, hbus, hparams, hhistory, hmarks, henv, hppi, hmask, hsched⟩ := schedulerClocked_fields s
  obtain ⟨tpit, tpic, tppi, tmask, tsched⟩ := schedulerStep_dev s
  obtain ⟨hc0, hc1, hc2⟩ := schedulerClocked_counters s
  have hstart := schedulerStart_dev s
  have hbudget := budget_eq s.params s.dev.sched (takeCycles s).1
  rw [stepTicks_eq, sysTicks_frac] at hbudget
  have hclocks : schedulerClocked s = pitStep (budget s.params s.dev.sched (takeCycles s).1).1 (schedulerStart s) := rfl
  have hticked (k : Nat) := pitStep_ticked k (schedulerStart s)
  have hzero : (pitStep 0 (schedulerStart s)).dev = (schedulerStart s).dev := by rw [pitStep_zero]
  rw [hstart] at hzero
  dsimp only at *
  rw [tpit, tpic, tppi, tmask, tsched, hsched, hbudget]
  simp only [hbudget] at hclocks hc0 hc1 hc2
  refine ⟨schedulerStep_cpu s, hppi, hmask, imminentHint_clocked s, (takeCycles s).1, takeCycles_one_le s, fun m l h => ?_,
    rfl, rfl, rfl, rfl, hc0, hc1, hc2, fun h => ?_,
    fun k => (pitStep k (schedulerStart s)).dev, congrArg Devices.pit hzero, congrArg Devices.pic hzero,
    (congrArg Devices.refreshReq hzero :), (congrArg Devices.dma hzero :),
    fun k _ => hticked k, congrArg (fun v : State => v.dev.pit) hclocks, congrArg (fun v : State => v.dev.pic) hclocks,
    schedulerClocked s, congrArg State.dev hclocks, hbus, hhistory, hparams, hmarks, by rw [henv], by rw [henv], by rw [henv],
    rfl, rfl, rfl, rfl, rfl⟩
  · obtain ⟨hn, hl⟩ := takeCycles_of_cons h
    exact ⟨hn, (schedulerStep_cycles s).trans hl⟩
  · rw [hclocks]
    exact (congrArg (fun k => (pitStep k (schedulerStart s)).dev.pic) h).trans (congrArg Devices.pic hzero)

end Sys2Proof.Machine
